-- ==== Sys2Proof/Word.lean ====
section
/-! DEFINITION. The words the manual treats as bits, and the plain numbers beside them. -/

namespace Sys2Proof

/-- One byte of host memory, of a message or of an address line. -/
abbrev Byte := BitVec 8

/-- A pocket tag: the low 16 bits of a pocket serial (R9). -/
abbrev Tag := BitVec 16

/-- A pocket serial (R8), a result word, a counter (R189): 32 bits. -/
abbrev Word := BitVec 32

/-- An address in host memory. Address sums are formed exactly (R29, R31), so it is a number. -/
abbrev Address := Nat

/-- A set of stations 0 to 11, bit n for station n (formats section of 02, "selection set"). -/
abbrev StationSet := BitVec 12

end Sys2Proof
end

