-- ==== Sys2Proof/Syntax.lean ====
section
/-! DEFINITION. The commands of the block: one constructor for each row of spec/opcode_table.json.
The table lists no fields. The operands are what each event carries by the numbered rules. -/

namespace Sys2Proof

/-- The two print heads (R104). -/
inductive Head where
  | a
  | b
  deriving DecidableEq, Repr

/-- What a PICK reports (R74). -/
inductive PickResult where
  | good
  | miss
  | double
  deriving DecidableEq, Repr

/-- What a STATE message reports (R69). -/
inductive Condition where
  | ready
  | notReady
  | jam
  deriving DecidableEq, Repr

/-- The reads of host memory that the part makes (R24, R28, R30, R184). -/
inductive ReadKind where
  | profile
  | requestSection
  | linkWord
  | pageHeader
  | pageRecords
  deriving DecidableEq, Repr

/-- Whose completion a completed or failed read is: the link tells its reads apart. A read is
awaited, or the fetch it served was ended by ABORT_JOB (R30), or it was dropped at a soft reset or
at the stop of R26 and only its completion is still to come (R26, R192, log 6). -/
inductive ReadOrigin where
  | awaited
  | abandoned
  | dropped
  deriving DecidableEq, Repr

/-- A completed read: whose it is, and the bytes it carries, in address order; for the records of a
page these are the request halves of its record slots, one after the other (R30). -/
structure CompletedRead where
  origin : ReadOrigin
  data : List Byte
  deriving DecidableEq, Repr

/-- A read that ended in an error: whose it is, and of what it was. -/
structure FailedRead where
  origin : ReadOrigin
  kind : ReadKind
  deriving DecidableEq, Repr

/-- The parts of one pitch event that R17 and R60 to R62 allow in either order: the fill of
position 0 with its window update, the arrival at each feeder station and at each configured
position, the film judgement with the arrival at SEAL (one event, R125), the arrival at the last
position, and the spit of each purging head (R115). -/
inductive PitchPart where
  | fill
  | station (n : Fin 12)
  | print
  | verify
  | gauge
  | wrap
  | reject
  | last
  | purge (head : Head)
  deriving DecidableEq, Repr

/-- The commands. A message from the loop, a head or the reader carries `checkOk`, whether the
check over its content holds (R68, R105, R111). -/
inductive Instr where
  /-- POWER_ON (R168). -/
  | powerOn
  /-- SOFT_RESET (R191, R192): a CONTROL write with SOFT_RESET 1, and the ENABLE bit it carries. -/
  | softReset (enableBit : Bool)
  /-- ENABLE (R191): a CONTROL write with SOFT_RESET 0 and this ENABLE bit. -/
  | enable (bit : Bool)
  /-- ATTENTION_CLEAR (R186): the value written to ATTENTION. -/
  | attentionClear (value : Word)
  /-- ANCHOR_WRITE (R24): to ANCHOR_HIGH or ANCHOR_LOW, and the value. -/
  | anchorWrite (high : Bool) (value : Word)
  /-- REGISTER_WRITE (R187, R191): an offset and the value. -/
  | registerWrite (offset : Word) (value : Word)
  /-- FORWARD_COUNT (R2). -/
  | forwardCount
  /-- REVERSE_COUNT (R3). -/
  | reverseCount
  /-- PITCH_EVENT (R7): the gauge's analog input at that moment, in steps of the converter above the
  bottom of its range (R89, log 39), and the order in which the parts of the event are taken
  (log 4). -/
  | pitchEvent (input : Int) (order : List PitchPart)
  /-- TAIL_WINDOW_EXPIRY (R59). -/
  | tailWindowExpiry
  /-- PURGE_END (R115). -/
  | purgeEnd (head : Head)
  /-- PICK (R74). -/
  | pick (address : Byte) (tag : Tag) (result : PickResult) (checkOk : Bool)
  /-- STATE (R69): the temperature field is read from the sealer unit only. -/
  | stateMessage (address : Byte) (condition : Condition) (temperature : BitVec 16)
      (checkOk : Bool)
  /-- SILENCE_TIMEOUT (R69): of a loop address, 12 being the sealer unit. -/
  | silenceTimeout (address : Fin 13)
  /-- STALENESS_TIMEOUT (R129). -/
  | stalenessTimeout
  /-- FILM_COUNT (R123). -/
  | filmCount (forward : Bool)
  /-- DONE (R109). -/
  | done (head : Head) (tag : Tag) (checkOk : Bool)
  /-- HEAD_ERROR (R110). -/
  | headError (head : Head) (tag : Tag) (checkOk : Bool)
  /-- READ (R112): the three values of the printed code, and the corrected flag. -/
  | read (tag : Tag) (jobTag : BitVec 16) (serial : Word) (checkValue : BitVec 16)
      (corrected : Bool) (checkOk : Bool)
  /-- NOREAD (R114). -/
  | noread (tag : Tag) (checkOk : Bool)
  /-- STACKER_READY_CHANGE (R165). -/
  | stackerReadyChange (ready : Bool)
  /-- STACKER_PULSE_END (R164). -/
  | stackerPulseEnd
  /-- GUARD_CHANGE (R177). -/
  | guardChange (closed : Bool)
  /-- DRIVE_READY_CHANGE (R177). -/
  | driveReadyChange (asserted : Bool)
  /-- DRAIN_END (R174). -/
  | drainEnd
  /-- FILE_END (R36). -/
  | fileEnd
  /-- JOB_COMPLETE (R175). -/
  | jobComplete
  /-- BUNDLE_CLOSE (R161): the serial of the pocket whose handling completed the resolution, or 0
  where it was a withdrawal (R162). -/
  | bundleClose (closeSerial : Word)
  /-- PAGE_CLOSE (R45). -/
  | pageClose
  /-- FETCH_START (R27). -/
  | fetchStart
  /-- LINK_POLL (R28). -/
  | linkPoll
  /-- LINK_READ_DONE (R28). -/
  | linkReadDone (completed : CompletedRead)
  /-- HEADER_READ_DONE (R31). -/
  | headerReadDone (completed : CompletedRead)
  /-- RECORDS_READ_DONE (R32). -/
  | recordsReadDone (completed : CompletedRead)
  /-- READ_ERROR_COMPLETION (R26). -/
  | readErrorCompletion (failed : FailedRead)
  /-- READ_TIMEOUT (R26). -/
  | readTimeout (kind : ReadKind)
  /-- PCIE_LINK_INACTIVE (R26). -/
  | pcieLinkInactive
  /-- SCAN_TIMER (R184). -/
  | scanTimer
  /-- UNKNOWN_REQUEST (R184). -/
  | unknownRequest
  /-- LOAD_JOB (R169). -/
  | loadJob
  /-- PROFILE_READ_DONE (R170). -/
  | profileReadDone (completed : CompletedRead)
  /-- START (R172). -/
  | start
  /-- PAUSE (R173). -/
  | pause
  /-- DRAIN (R174). -/
  | drain
  /-- CLEAR_HALT (R178). -/
  | clearHalt
  /-- ABORT_JOB (R180). -/
  | abortJob
  /-- RETRY_PAGE (R40). -/
  | retryPage
  /-- SKIP_PAGE (R41). -/
  | skipPage
  /-- SET_STATION (R83). -/
  | setStation
  /-- CLEAR_STATION (R84). -/
  | clearStation
  /-- SET_THICKNESS (R85). -/
  | setThickness
  /-- CALIBRATE_GAUGE (R101). -/
  | calibrateGauge
  /-- SELECT_HEAD (R118). -/
  | selectHead
  /-- RESTORE_HEAD (R119). -/
  | restoreHead
  /-- SNAPSHOT (R190). -/
  | snapshot
  /-- STATUS_REFRESH (R188). -/
  | statusRefresh
  /-- REQUEST_SECTION_READ_DONE (R184). -/
  | requestSectionReadDone (completed : CompletedRead)
  /-- PCIE_LINK_ACTIVE (R187). -/
  | pcieLinkActive
  /-- INTERRUPT_ADDRESS_CONFIG (R187): the interrupt address. -/
  | interruptAddressConfig (address : BitVec 64)
  deriving DecidableEq, Repr

end Sys2Proof
end

