-- ==== Sys2Proof/Config.lean ====
section
/-! DEFINITION. The values the manual leaves open, without a body, and the bounds it gives. -/

namespace Sys2Proof.Config

/-- The revision in bits 7:0 of ID: the register table names it and gives no value (log 8). -/
opaque revision : BitVec 8

/-- A result word that the entry of a request does not give (log 7). It is applied to a counter of
State, so that each use is a fresh value. -/
opaque freeWord : Nat → Word

/-- The Staging Queue holds at most 64 records (R37). -/
def stagingCapacity : Nat := 64

/-- The most records a page declares (R31): the room that R27 asks for. -/
def pageCapacity : Nat := 32

/-- The Open Page List holds at most 16 entries (R38). -/
def openPageCapacity : Nat := 16

/-- The Bundle Table holds at most 8 open bundles (R152). -/
def bundleCapacity : Nat := 8

/-- The verify window holds the last 8 results (R120). -/
def verifyWindowLength : Nat := 8

/-- The largest deficit (R3) and the largest film count either way (R123). -/
def countLimit : Nat := 65535

end Sys2Proof.Config
end

