-- ==== Sys2Proof/Machine/State.lean ====
section
/-! DEFINITION. The state of the W416, block by block, as plain data, and the state after power-on.
Each structure names the rule whose table it holds. -/

namespace Sys2Proof.Machine

/-! ## The Link Interface and the Request Scanner -/

/-- The causes of ATTENTION, in the order of their bits (formats of 02, R186). -/
inductive Attention where
  | reqDone
  | pageClosed
  | pageRefused
  | bundleClosed
  | lineState
  | stationFault
  | headChange
  | gaugeDrift
  | starved
  | halted
  | jobComplete
  | linkFault
  deriving DecidableEq, Repr

/-- What the Link Interface handles in the order it is handed over: a write to host memory, a read
of host memory, and an attention bit that follows the writes of its event (R25, R186). -/
inductive LinkItem where
  | write (address : Address) (data : List Byte)
  | read (address : Address) (length : Nat)
  | attention (cause : Attention)
  deriving DecidableEq, Repr

/-- The four stacker commands (R164). -/
inductive StackerCommand where
  | stack
  | oosExit
  | bundleEject
  | trayBreak
  deriving DecidableEq, Repr

/-- What the part sends: writes and reads on the link, interrupt messages (R187), CALLs (R71), print
jobs and spits (R105), reader triggers (R111) and stacker pulses (R164). The check over their content
that CALL, PRINT and SPIT carry is not recorded: the spec does not give it (R68, R105; DESIGN
CHOICE, log 35). -/
inductive Message where
  | write (address : Address) (data : List Byte)
  | read (address : Address) (length : Nat)
  | interrupt (address : BitVec 64) (cause : Attention)
  | call (station : Fin 12) (tag : Tag) (feed : Bool)
  | print (head : Head) (tag : Tag) (lines : List (List Byte)) (jobTag serial checkValue : Nat)
  | spit (head : Head)
  | trigger (tag : Tag)
  | pulse (command : StackerCommand)
  deriving DecidableEq, Repr

/-- The registers and the link (R24 to R26, R186, R187, R191). -/
structure Link where
  enable : Bool
  attention : BitVec 12
  mask : BitVec 12
  anchorLow : Word
  anchorHigh : Word
  /-- the PCIe link is in its active state (R26, R187) -/
  active : Bool
  /-- the interrupt address the host has configured (R187) -/
  interruptAddress : Option (BitVec 64)
  /-- reads issued whose completion the part waits for -/
  outstanding : List ReadKind
  /-- reads whose fetch ABORT_JOB ended (R30): their data is not used -/
  abandoned : List ReadKind
  /-- link traffic handed over while the link is not active, oldest first (log 5) -/
  waiting : List LinkItem
  deriving DecidableEq, Repr

/-- What the request in progress waits for (log 21). -/
inductive Phase where
  /-- handed to its owner, not yet carried out -/
  | handed
  /-- LOAD_JOB: the profile section is being read (R169) -/
  | readingProfile
  /-- RETRY_PAGE or SKIP_PAGE taken during a fetch (R30) -/
  | awaitingFetch
  /-- RETRY_PAGE: the link word is being read (R40) -/
  | retryLink
  /-- RETRY_PAGE: its page fetch is going on (R40) -/
  | retryFetch
  deriving DecidableEq, Repr

/-- The request in progress: the copy of its slot (R184). -/
structure Request where
  slot : Fin 4
  code : Nat
  hostTag : Word
  param0 : Nat
  param1 : Nat
  param2 : Nat
  param3 : Nat
  phase : Phase
  deriving DecidableEq, Repr

/-- The results of a request (R185). -/
inductive RequestResult where
  | doneOk
  | badState
  | badValue
  | unknown
  deriving DecidableEq, Repr

/-! ## The loaded profile -/

/-- One station entry of the profile section (formats of 02). -/
structure StationProfile where
  fitted : Nat
  position : Nat
  thickness : Nat
  missLimit : Nat
  doubleLimit : Nat
  faultAction : Nat
  deriving DecidableEq, Repr

/-- The profile section of the Control Block, as read (formats of 02, R24). -/
structure Profile where
  windowBase : Address
  windowLimit : Address
  firstPage : Address
  jobTag : Nat
  trackLen : Nat
  cpp : Nat
  remakeLimit : Nat
  tailGaps : Nat
  printPos : Nat
  verifyPos : Nat
  gaugePos : Nat
  sealPos : Nat
  rejectPos : Nat
  headAFitted : Bool
  headBFitted : Bool
  headFailLimit : Nat
  purgeSpits : Nat
  gaugeFitted : Nat
  scale : Nat
  initialZero : Nat
  wFixed : Nat
  wPm : Nat
  driftLim : Nat
  fNom : Nat
  fTol : Nat
  filmFaultLimit : Nat
  sealLow : Nat
  sealHigh : Nat
  sealHyst : Nat
  stations : Vector StationProfile 12
  deriving DecidableEq, Repr

/-! ## Pockets and the track -/

inductive PocketKind where
  | gap
  | new
  | remake
  deriving DecidableEq, Repr

/-- R12. -/
inductive PocketState where
  | empty
  | live
  | faulted
  | diverted
  | delivered
  deriving DecidableEq, Repr

inductive SortClass where
  | inSort
  | oos
  deriving DecidableEq, Repr

/-- The fault causes, with NONE left out (R11). -/
inductive FaultCause where
  | miss
  | double
  | noReport
  | noPrintAck
  | noVerify
  | noPrint
  | printError
  | printData
  | mismatch
  | noread
  | short
  | over
  | wrap
  | sealFault
  | suspect
  deriving DecidableEq, Repr

/-- The fault field of a pocket record (R10, R11). -/
structure PocketFault where
  cause : FaultCause
  station : Option (Fin 12)
  suspect : Bool
  deriving DecidableEq, Repr

/-- The results of a read-back (R112). -/
inductive VerifyResult where
  | matched
  | corrected
  | noread
  | printData
  | mismatch
  deriving DecidableEq, Repr

/-- The pending set of a pocket (R13). -/
structure PendingSet where
  stations : StationSet
  headAck : Bool
  readBack : Bool
  deriving DecidableEq, Repr

/-- A subscriber reference: the context entry and the subscriber serial (R14). -/
structure SubscriberRef where
  context : Nat
  serial : Nat
  deriving DecidableEq, Repr

/-- A pocket record (R10). -/
structure Pocket where
  serial : Word
  kind : PocketKind
  state : PocketState
  subscriber : Option SubscriberRef
  attempt : Option Nat
  sort : Option SortClass
  feed : StationSet
  pend : PendingSet
  fault : Option PocketFault
  printedBy : Option Head
  thickness : Option Nat
  verify : Option VerifyResult
  deriving DecidableEq, Repr

/-- The Track (01). An entry that is `none` is unused (R6). -/
structure Track where
  accumulator : Nat
  deficit : Nat
  /-- pitch events the Track has raised that have not been taken yet (R2, log 3) -/
  raised : Nat
  base : Nat
  nextSerial : Word
  entries : Vector (Option Pocket) 128
  deriving DecidableEq, Repr

/-! ## The record collections -/

/-- An entry of the Staging Queue (R37). An opening record has a size of 1 or above. -/
structure Staged where
  serial : Nat
  key : Nat
  size : Nat
  selection : StationSet
  trayEnd : Bool
  lines : List (List Byte)
  ordinal : Nat
  pageSlot : Nat
  recordSlot : Nat
  checkValue : Nat
  broken : Bool
  withdrawn : Nat
  deriving DecidableEq, Repr

/-- A piece context (R39), and the serial of the pocket of its latest attempt, which R8 has written
as the final pocket serial also where that pocket has left the track. -/
structure Context where
  pageSlot : Nat
  recordSlot : Nat
  serial : Nat
  ordinal : Nat
  selection : StationSet
  lines : List (List Byte)
  checkValue : Nat
  attempts : Nat
  lastPocket : Word
  sort : SortClass
  lastFault : Option (FaultCause × Option (Fin 12))
  bypassed : StationSet
  gaugeSkipped : Bool
  verifyCorrected : Bool
  deriving DecidableEq, Repr

/-- An entry of the Open Page List (R38). -/
structure OpenPage where
  slot : Nat
  address : Address
  sequence : Nat
  count : Nat
  final : Nat
  bundlesOpen : Nat
  tailRole : Bool
  ends : Bool
  deriving DecidableEq, Repr

/-- The final outcomes (R43). -/
inductive PieceOutcome where
  | mailed
  | mailedOos
  | failed
  | notProduced
  deriving DecidableEq, Repr

/-! ## The Page Fetcher -/

/-- R27. -/
inductive FetchState where
  | off
  | waiting
  | polling
  | fetching
  | pageHeld
  | linkRefused
  | ended
  | linkDown
  deriving DecidableEq, Repr

/-- The refusal causes, with NONE left out (R31, R32). -/
inductive RefusalCause where
  | state
  | sequence
  | count
  | extent
  | serial
  | key
  | size
  | bundle
  | selection
  | lines
  | length
  | character
  deriving DecidableEq, Repr

/-- The link source: none before the first LOAD_JOB, the profile's first page address before the first
page, then the page whose link word leads on. -/
inductive LinkSource where
  | none
  | first (address : Address)
  | page (address : Address)
  deriving DecidableEq, Repr

/-- The tail bundle of the file position. -/
structure TailBundle where
  key : Nat
  size : Nat
  read : Nat
  ordinal : Nat
  deriving DecidableEq, Repr

/-- A page header as read (formats of 02). -/
structure PageHeader where
  link : Address
  sequence : Nat
  count : Nat
  ends : Bool
  pageState : Nat
  deriving DecidableEq, Repr

/-- The page being fetched: its address, and its header once read and passed (R30). -/
structure Fetch where
  address : Address
  header : Option PageHeader
  deriving DecidableEq, Repr

/-- The page held after a refusal (R34, R41). -/
structure HeldPage where
  address : Address
  sequence : Nat
  count : Nat
  ends : Bool
  cause : RefusalCause
  deriving DecidableEq, Repr

/-- The Page Fetcher (02). -/
structure Fetcher where
  state : FetchState
  source : LinkSource
  heldLink : Address
  expected : Nat
  lastSerial : Option Nat
  /-- a page has been skipped since the last acceptance (R32) -/
  skippedSince : Bool
  tail : Option TailBundle
  orphan : Bool
  nextOrdinal : Nat
  endSeen : Bool
  fetch : Option Fetch
  held : Option HeldPage
  /-- a skipped page that still waits for its release: address and sequence (R41, R45) -/
  skipped : Option (Address × Nat)
  /-- the held page sequence and the refused link address shown in the status section (R188) -/
  heldShown : Nat
  refusedShown : Address
  closedCount : Nat
  lastClosed : Nat
  pages : List OpenPage
  deriving DecidableEq, Repr

/-! ## The Intake Sequencer -/

/-- The hold-cause set (R63). -/
structure Holds where
  line : Bool
  noHead : Bool
  bundleTail : Bool
  tableFull : Bool
  starved : Bool
  drain : Bool
  deriving DecidableEq, Repr

/-- The Intake Sequencer (03): the hold-cause set and the tail-window counter. -/
structure Intake where
  holds : Holds
  window : Option Nat
  deriving DecidableEq, Repr

/-! ## Stations, gauge, heads, wrap -/

inductive StationState where
  | offline
  | online
  | bypassed
  | faulted
  deriving DecidableEq, Repr

/-- R77. -/
inductive StationCause where
  | missLimit
  | doubleLimit
  | jam
  | lost
  deriving DecidableEq, Repr

/-- A station entry (R67). -/
structure Station where
  fitted : Bool
  position : Nat
  thickness : Nat
  missLimit : Nat
  doubleLimit : Nat
  /-- the profile's fault action is BYPASS -/
  bypassAction : Bool
  state : StationState
  cause : Option StationCause
  misses : Nat
  doubles : Nat
  lastState : Option Condition
  /-- the silence timer is running (else expired) -/
  timer : Bool
  deriving DecidableEq, Repr

inductive GaugeState where
  | off
  | active
  | suspended
  | calibrating
  deriving DecidableEq, Repr

/-- The Pile Gauge (05). -/
structure Gauge where
  state : GaugeState
  z16 : Nat
  zRef : Nat
  deriving DecidableEq, Repr

inductive HeadState where
  | off
  | standby
  | active
  | purging
  | failed
  deriving DecidableEq, Repr

/-- A head entry (R104). -/
structure HeadEntry where
  state : HeadState
  purges : Nat
  countdown : Nat
  run : Nat
  deriving DecidableEq, Repr

/-- An entry of the read-back list (R108). -/
structure ReadBack where
  pocket : Word
  head : Head
  serial : Nat
  checkValue : Nat
  deriving DecidableEq, Repr

/-- The Print and Read-Back Unit (06). -/
structure PrintUnit where
  headA : HeadEntry
  headB : HeadEntry
  readBacks : List ReadBack
  window : List VerifyResult
  deriving DecidableEq, Repr

/-- The Wrap Monitor (07). -/
structure Wrap where
  film : Int
  run : Nat
  runaway : Bool
  /-- the seal state is OK (else OUT) -/
  sealOk : Bool
  /-- the staleness timer is running (else expired) -/
  timer : Bool
  deriving DecidableEq, Repr

/-! ## Remakes, bundles, the line -/

/-- An entry of the Remake List (R137). -/
structure Remake where
  context : Nat
  serial : Nat
  ordinal : Nat
  sort : SortClass
  attempt : Nat
  deriving DecidableEq, Repr

inductive Gate where
  | pass
  | divert
  deriving DecidableEq, Repr

inductive BundleState where
  | feeding
  | tailing
  | settling
  | doneWaiting
  deriving DecidableEq, Repr

/-- An entry of the Bundle Table (R152). -/
structure Bundle where
  ordinal : Nat
  size : Nat
  trayEnd : Bool
  pageSlot : Nat
  recordSlot : Nat
  state : BundleState
  fed : Nat
  delivered : Nat
  outOfSort : Nat
  failed : Nat
  withdrawn : Nat
  broken : Bool
  deriving DecidableEq, Repr

/-- The close states of a bundle report (formats of 02). -/
inductive CloseState where
  | complete
  | short
  | aborted
  deriving DecidableEq, Repr

/-- The stacker command lines (R164): the pulse in progress, and the commands issued whose pulses
have not begun. -/
structure Stacker where
  pulse : Option StackerCommand
  held : List StackerCommand
  deriving DecidableEq, Repr

inductive LineState where
  | idle
  | ready
  | running
  | draining
  | paused
  | halted
  | complete
  deriving DecidableEq, Repr

inductive DrainKind where
  | operator
  | endOfFile
  deriving DecidableEq, Repr

inductive StopCause where
  | none
  | request
  | station
  | film
  | stacker
  | noPrint
  | drain
  deriving DecidableEq, Repr

inductive HaltCause where
  | none
  | guardOpen
  | drive
  | slip
  | reverse
  | runaway
  | link
  deriving DecidableEq, Repr

/-- The Line Controller (10). -/
structure Line where
  state : LineState
  drain : Option DrainKind
  stop : StopCause
  halt : HaltCause
  fileExhausted : Bool
  runEnable : Bool
  quickStop : Bool
  deriving DecidableEq, Repr

/-- The input lines (00, R165, R177). -/
structure Inputs where
  guardClosed : Bool
  driveReady : Bool
  stackerReady : Bool
  deriving DecidableEq, Repr

/-- Both banks of counters, each as job total and interval, and the snapshot sequence (R189,
R190). -/
structure Counters where
  total : Vector Word 64
  interval : Vector Word 64
  stationTotal : Vector Word 48
  stationInterval : Vector Word 48
  snapshots : Word
  deriving DecidableEq, Repr

/-! ## The whole state -/

/-- The state of the block. `pending` is the queue of commands that wait, oldest first; `sent` is
what the part has sent, oldest first; `freeCount` selects the next free value. These three are the
model's own (log 1, log 11, log 7). -/
structure State where
  pending : List Instr
  link : Link
  request : Option Request
  profile : Option Profile
  fetcher : Fetcher
  staging : List Staged
  contexts : Vector (Option Context) 128
  intake : Intake
  track : Track
  stations : Vector Station 12
  sealerTimer : Bool
  gauge : Gauge
  print : PrintUnit
  wrap : Wrap
  remakes : List Remake
  gate : Gate
  bundles : List Bundle
  stacker : Stacker
  line : Line
  inputs : Inputs
  counters : Counters
  sent : List Message
  freeCount : Nat
  deriving DecidableEq, Repr

/-- No command of the block stops with a fault: R26, R34, R176 and R185 make every failure a next
state. The type has no constructor, so nothing raises it (safe). -/
inductive Fault where
  deriving DecidableEq, Repr

/-- Why the model gives a command no meaning. -/
inductive Refusal where
  /-- The command has no meaning in the model yet. Raised only by an arm of exec that is not
  written; none is left (safe). -/
  | notModelled (mnemonic : String)
  deriving DecidableEq, Repr

/-! ## The state after power-on -/

/-- R70: OFFLINE, counts 0, no cause, no last STATE, timer expired, no profile fields held. -/
def Station.reset : Station :=
  { fitted := false, position := 0, thickness := 0, missLimit := 0, doubleLimit := 0,
    bypassAction := false, state := .offline, cause := none, misses := 0, doubles := 0,
    lastState := none, timer := false }

/-- R27: OFF, with the file position values cleared. -/
def Fetcher.reset : Fetcher :=
  { state := .off, source := .none, heldLink := 0, expected := 0, lastSerial := none,
    skippedSince := false, tail := none, orphan := false, nextOrdinal := 0, endSeen := false,
    fetch := none, held := none, skipped := none, heldShown := 0, refusedShown := 0,
    closedCount := 0, lastClosed := 0, pages := [] }

/-- R192: the registers are 0. The link's own levels are the model's choice (log 9). -/
def Link.reset : Link :=
  { enable := false, attention := 0, mask := 0, anchorLow := 0, anchorHigh := 0, active := true,
    interruptAddress := none, outstanding := [], abandoned := [], waiting := [] }

/-- R63, R66: no cause is held. -/
def Holds.empty : Holds :=
  { line := false, noHead := false, bundleTail := false, tableFull := false, starved := false,
    drain := false }

/-- R22. -/
def Track.reset : Track :=
  { accumulator := 0, deficit := 0, raised := 0, base := 0, nextSerial := 0,
    entries := Vector.replicate 128 none }

/-- R104: OFF with every count 0. -/
def HeadEntry.reset : HeadEntry := { state := .off, purges := 0, countdown := 0, run := 0 }

/-- R104: both heads OFF, the list and the window empty. -/
def PrintUnit.reset : PrintUnit :=
  { headA := .reset, headB := .reset, readBacks := [], window := [] }

/-- R131. -/
def Wrap.reset : Wrap := { film := 0, run := 0, runaway := false, sealOk := false, timer := false }

/-- R168. -/
def Line.reset : Line :=
  { state := .idle, drain := none, stop := .none, halt := .none, fileExhausted := false,
    runEnable := false, quickStop := false }

/-- R189, R190: every counter and the snapshot sequence are 0. -/
def Counters.reset : Counters :=
  { total := Vector.replicate 64 0, interval := Vector.replicate 64 0,
    stationTotal := Vector.replicate 48 0, stationInterval := Vector.replicate 48 0,
    snapshots := 0 }

/-- The machine right after power-on (R168, R192 and the rules of each block). -/
def State.reset : State :=
  { pending := [], link := .reset, request := none, profile := none, fetcher := .reset,
    staging := [], contexts := Vector.replicate 128 none,
    intake := { holds := .empty, window := none }, track := .reset,
    stations := Vector.replicate 12 .reset, sealerTimer := false,
    gauge := { state := .off, z16 := 0, zRef := 0 }, print := .reset, wrap := .reset,
    remakes := [], gate := .pass, bundles := [], stacker := { pulse := none, held := [] },
    line := .reset,
    inputs := { guardClosed := false, driveReady := false, stackerReady := false },
    counters := .reset, sent := [], freeCount := 0 }

end Sys2Proof.Machine
end

