-- ==== Sys2Proof/Machine/Flags.lean ====
section
/-! DEFINITION. The bits of the registers and the value codes of the status section, the slots and the
outcome halves (the table "Value codes" and the layouts of 02, the counter indices of 11). -/

namespace Sys2Proof.Machine

/-- The bit of a cause in ATTENTION and ATTENTION_MASK (register table of 02). -/
def Attention.bit : Attention → Nat
  | .reqDone => 0
  | .pageClosed => 1
  | .pageRefused => 2
  | .bundleClosed => 3
  | .lineState => 4
  | .stationFault => 5
  | .headChange => 6
  | .gaugeDrift => 7
  | .starved => 8
  | .halted => 9
  | .jobComplete => 10
  | .linkFault => 11

/-- The bit of a cause as a register value. -/
def Attention.word (c : Attention) : BitVec 12 := BitVec.twoPow 12 c.bit

def LineState.code : LineState → Nat
  | .idle => 0
  | .ready => 1
  | .running => 2
  | .draining => 3
  | .paused => 4
  | .halted => 5
  | .complete => 6

def StopCause.code : StopCause → Nat
  | .none => 0
  | .request => 1
  | .station => 2
  | .film => 3
  | .stacker => 4
  | .noPrint => 5
  | .drain => 6

def HaltCause.code : HaltCause → Nat
  | .none => 0
  | .guardOpen => 1
  | .drive => 2
  | .slip => 3
  | .reverse => 4
  | .runaway => 5
  | .link => 6

def FetchState.code : FetchState → Nat
  | .off => 0
  | .waiting => 1
  | .polling => 2
  | .fetching => 3
  | .pageHeld => 4
  | .linkRefused => 5
  | .ended => 6
  | .linkDown => 7

def StationState.code : StationState → Nat
  | .offline => 0
  | .online => 1
  | .bypassed => 2
  | .faulted => 3

/-- The last STATE in a result word (R83): 0 when absent. -/
def lastStateCode : Option Condition → Nat
  | none => 0
  | some .ready => 1
  | some .notReady => 2
  | some .jam => 3

/-- The cleared fault cause in a result word (R84). The entry gives 1 to 4; an absent cause, which a
FAULTED station never has, reads 0. -/
def stationCauseCode : Option StationCause → Nat
  | none => 0
  | some .missLimit => 1
  | some .doubleLimit => 2
  | some .jam => 3
  | some .lost => 4

def HeadState.code : HeadState → Nat
  | .off => 0
  | .standby => 1
  | .active => 2
  | .purging => 3
  | .failed => 4

def GaugeState.code : GaugeState → Nat
  | .off => 0
  | .active => 1
  | .suspended => 2
  | .calibrating => 3

/-- The seal state: OUT 0, OK 1. -/
def sealCode (ok : Bool) : Nat := if ok then 1 else 0

def FaultCause.code : FaultCause → Nat
  | .miss => 1
  | .double => 2
  | .noReport => 3
  | .noPrintAck => 4
  | .noVerify => 5
  | .noPrint => 6
  | .printError => 7
  | .printData => 8
  | .mismatch => 9
  | .noread => 10
  | .short => 11
  | .over => 12
  | .wrap => 13
  | .sealFault => 14
  | .suspect => 15

def RefusalCause.code : RefusalCause → Nat
  | .state => 1
  | .sequence => 2
  | .count => 3
  | .extent => 4
  | .serial => 5
  | .key => 6
  | .size => 7
  | .bundle => 8
  | .selection => 9
  | .lines => 10
  | .length => 11
  | .character => 12

def PieceOutcome.code : PieceOutcome → Nat
  | .mailed => 1
  | .mailedOos => 2
  | .failed => 3
  | .notProduced => 4

def CloseState.code : CloseState → Nat
  | .complete => 1
  | .short => 2
  | .aborted => 3

def RequestResult.code : RequestResult → Nat
  | .doneOk => 1
  | .badState => 2
  | .badValue => 3
  | .unknown => 4

/-- Page states written by the part (formats of 02). -/
def pageHost : Nat := 0
def pageLoaded : Nat := 1
def pageClosed : Nat := 2
def pageRefused : Nat := 3

/-- Slot states (R183). -/
def slotPosted : Nat := 1
def slotTaken : Nat := 2
def slotDone : Nat := 3

/-- The byte of intake hold causes at 0x204: bit 0 LINE to bit 5 DRAIN. -/
def Holds.code (h : Holds) : Nat :=
  h.line.toNat + 2 * h.noHead.toNat + 4 * h.bundleTail.toNat + 8 * h.tableFull.toNat +
    16 * h.starved.toNat + 32 * h.drain.toNat

/-- The counters of the line bank (R189). -/
inductive LineCounter where
  | pitches | reverseCounts | pagesRead | pagesLoaded | pagesRefused | pagesSkipped
  | mailed | mailedOos | failed | notProduced | newFed | remakesFed | gapsFed | starvedGaps
  | stationFaults | gaugeGood | gaugeShort | gaugeOver | gaugeSkips | zeroUpdates | gaugeDrifts
  | prints | noPrints | headErrors | headStrays | readMatch | readCorrected | readNoread
  | readPrintData | readMismatch | readStrays | purges | headSwaps | slips | filmOut | wrapFaults
  | filmStops | runaways | sealOut | sealFaults | firstFaults | laterFaults | remakesQueued
  | gateFaults | suspectFaults | diverts | passes | bundlesOpened | bundlesComplete | bundlesShort
  | bundlesAborted | stacked | oosExits | ejects | trayBreaks | stackerStops | stackerUnready
  | starts | pauses | halts | drains | requests | interrupts
  deriving DecidableEq, Repr

/-- The index of a counter in the line bank (R189). Place 53 is not used. -/
def LineCounter.index : LineCounter → Fin 64
  | .pitches => 0 | .reverseCounts => 1 | .pagesRead => 2 | .pagesLoaded => 3
  | .pagesRefused => 4 | .pagesSkipped => 5 | .mailed => 6 | .mailedOos => 7 | .failed => 8
  | .notProduced => 9 | .newFed => 10 | .remakesFed => 11 | .gapsFed => 12 | .starvedGaps => 13
  | .stationFaults => 14 | .gaugeGood => 15 | .gaugeShort => 16 | .gaugeOver => 17
  | .gaugeSkips => 18 | .zeroUpdates => 19 | .gaugeDrifts => 20 | .prints => 21 | .noPrints => 22
  | .headErrors => 23 | .headStrays => 24 | .readMatch => 25 | .readCorrected => 26
  | .readNoread => 27 | .readPrintData => 28 | .readMismatch => 29 | .readStrays => 30
  | .purges => 31 | .headSwaps => 32 | .slips => 33 | .filmOut => 34 | .wrapFaults => 35
  | .filmStops => 36 | .runaways => 37 | .sealOut => 38 | .sealFaults => 39 | .firstFaults => 40
  | .laterFaults => 41 | .remakesQueued => 42 | .gateFaults => 43 | .suspectFaults => 44
  | .diverts => 45 | .passes => 46 | .bundlesOpened => 47 | .bundlesComplete => 48
  | .bundlesShort => 49 | .bundlesAborted => 50 | .stacked => 51 | .oosExits => 52
  | .ejects => 54 | .trayBreaks => 55 | .stackerStops => 56 | .stackerUnready => 57
  | .starts => 58 | .pauses => 59 | .halts => 60 | .drains => 61 | .requests => 62
  | .interrupts => 63

/-- The counters of the station bank (R86), by their k. -/
inductive StationCounter where
  | picks
  | misses
  | doubles
  | strays
  deriving DecidableEq, Repr

def StationCounter.index : StationCounter → Fin 4
  | .picks => 0
  | .misses => 1
  | .doubles => 2
  | .strays => 3

/-- The index 4s + k of a counter of station s (R189). -/
def stationIndex (s : Fin 12) (k : StationCounter) : Fin 48 :=
  ⟨4 * s.val + k.index.val, by omega⟩

/-- Adds 1 to a 32-bit counter, which stays at its top (R189). -/
def satIncr (c : Word) : Word := if c = BitVec.allOnes 32 then c else c + 1

end Sys2Proof.Machine
end

