-- ==== Sys2Proof/Machine/Operands.lean ====
section
/-! DEFINITION. Reading and laying out the bytes of host memory (formats of 02), the station sets, the
check value of an address (R103), and the arithmetic of gauge and film. -/

namespace Sys2Proof.Machine

/-! ## Little-endian fields -/

/-- The byte at an offset of the bytes read; past their end it reads 0 (log 25). -/
def byteAt (data : List Byte) (i : Nat) : Nat := (data.getD i 0).toNat

/-- A field of `n` bytes at offset `i`, low byte first. -/
def fieldAt (data : List Byte) (i : Nat) : Nat → Nat
  | 0 => 0
  | n + 1 => byteAt data i + 256 * fieldAt data (i + 1) n

/-- The low `n` bytes of a value, low byte first. -/
def leBytes : Nat → Nat → List Byte
  | 0, _ => []
  | n + 1, v => BitVec.ofNat 8 v :: leBytes n (v / 256)

/-! ## Station sets -/

def StationSet.empty : StationSet := 0

def StationSet.holds (set : StationSet) (n : Fin 12) : Bool := set.getLsbD n.val

def StationSet.add (set : StationSet) (n : Fin 12) : StationSet := set ||| BitVec.twoPow 12 n.val

def StationSet.remove (set : StationSet) (n : Fin 12) : StationSet :=
  set &&& ~~~(BitVec.twoPow 12 n.val)

/-- The stations of a set, in ascending order. -/
def StationSet.toList (set : StationSet) : List (Fin 12) :=
  (List.finRange 12).filter (StationSet.holds set)

/-- MAIN and CARRIER (R67). -/
def mainStation : Fin 12 := 0
def carrierStation : Fin 12 := 11

/-! ## The pocket tag and the next serial -/

/-- R9. -/
def tagOf (serial : Word) : Tag := serial.truncate 16

/-- R8: after 4,294,967,295 comes 1. -/
def serialAfter (serial : Word) : Word := if serial = BitVec.allOnes 32 then 1 else serial + 1

/-- R190: after 4,294,967,295 the snapshot sequence becomes 1. -/
def snapshotAfter (n : Word) : Word := if n = BitVec.allOnes 32 then 1 else n + 1

/-! ## Quadrature (R1, R123) -/

/-- The two channels of an encoder. -/
abbrev Channels := Bool × Bool

/-- Where the two channels stand in one full cycle of forward travel: one channel changes at each
edge (log 30). -/
def quadrant : Channels → Nat
  | (false, false) => 0
  | (true, false) => 1
  | (true, true) => 2
  | (false, true) => 3

/-- The count that an edge gives: `some true` forward, `some false` reverse. No change, and a change
of both channels together, give none (R1). -/
def decodeEdge (before after : Channels) : Option Bool :=
  if quadrant after = (quadrant before + 1) % 4 then some true
  else if quadrant before = (quadrant after + 1) % 4 then some false
  else none

/-! ## The profile section -/

/-- A station entry: 8 bytes at 0x040 + 8 n. -/
def parseStation (data : List Byte) (n : Nat) : StationProfile :=
  let o := 0x040 + 8 * n
  { fitted := fieldAt data o 1, position := fieldAt data (o + 1) 1,
    thickness := fieldAt data (o + 2) 2, missLimit := fieldAt data (o + 4) 1,
    doubleLimit := fieldAt data (o + 5) 1, faultAction := fieldAt data (o + 6) 1 }

/-- The profile section as laid out in the formats of 02. -/
def parseProfile (data : List Byte) : Profile :=
  { windowBase := fieldAt data 0x000 8, windowLimit := fieldAt data 0x008 8,
    firstPage := fieldAt data 0x010 8, jobTag := fieldAt data 0x018 2,
    trackLen := fieldAt data 0x01A 2, cpp := fieldAt data 0x01C 2,
    remakeLimit := fieldAt data 0x01E 1, tailGaps := fieldAt data 0x01F 1,
    printPos := fieldAt data 0x020 1, verifyPos := fieldAt data 0x021 1,
    gaugePos := fieldAt data 0x022 1, sealPos := fieldAt data 0x023 1,
    rejectPos := fieldAt data 0x024 1,
    headAFitted := (data.getD 0x028 0).getLsbD 0, headBFitted := (data.getD 0x028 0).getLsbD 1,
    headFailLimit := fieldAt data 0x029 1, purgeSpits := fieldAt data 0x02A 1,
    gaugeFitted := fieldAt data 0x02C 1, scale := fieldAt data 0x02D 1,
    initialZero := fieldAt data 0x02E 2, wFixed := fieldAt data 0x030 2,
    wPm := fieldAt data 0x032 1, driftLim := fieldAt data 0x033 1,
    fNom := fieldAt data 0x034 2, fTol := fieldAt data 0x036 2,
    filmFaultLimit := fieldAt data 0x038 1, sealLow := fieldAt data 0x03A 2,
    sealHigh := fieldAt data 0x03C 2, sealHyst := fieldAt data 0x03E 1,
    stations := Vector.ofFn fun n : Fin 12 => parseStation data n.val }

/-- A station of the profile is fitted. -/
def StationProfile.isFitted (s : StationProfile) : Bool := s.fitted == 1

/-- The sum of T over the fitted stations of a profile. -/
def Profile.thicknessSum (p : Profile) : Nat :=
  ((p.stations.toList.filter StationProfile.isFitted).map StationProfile.thickness).sum

/-- The station checks of one station, in the order of R170. Only the fitted field itself, and that
MAIN and CARRIER are fitted, is checked of a station that is not fitted. The fault action of
stations 0 and 11 is not read. -/
def Profile.stationOk (p : Profile) (n : Fin 12) : Bool :=
  let s := p.stations.get n
  decide (s.fitted ≤ 1) &&
  (s.isFitted || (n != mainStation && n != carrierStation)) &&
  (!s.isFitted ||
    (decide (1 ≤ s.position) && decide (s.position + 2 ≤ p.trackLen) &&
     (List.finRange 12).all (fun m => !(decide (m < n) && (p.stations.get m).isFitted &&
        (p.stations.get m).position == s.position)) &&
     decide (s.thickness ≤ 20000) &&
     decide (1 ≤ s.missLimit) && decide (s.missLimit ≤ 15) &&
     decide (1 ≤ s.doubleLimit) && decide (s.doubleLimit ≤ 15) &&
     (n == mainStation || n == carrierStation || decide (s.faultAction ≤ 1))))

/-- The address checks of R29, for a page address within a window. -/
def pageAddressOk (base limit address : Address) : Bool :=
  address % 64 == 0 && decide (base ≤ address) && decide (address + 64 ≤ limit)

/-- The profile checks with their field indices, in the order of R170: 1 to 20, the stations 32 to
43, then 21 to 27. -/
def Profile.checks (p : Profile) : List (Nat × Bool) :=
  [(1, decide (p.windowBase < p.windowLimit)),
   (2, pageAddressOk p.windowBase p.windowLimit p.firstPage),
   (3, decide (1 ≤ p.jobTag)),
   (4, decide (16 ≤ p.trackLen) && decide (p.trackLen ≤ 128)),
   (5, decide (100 ≤ p.cpp) && decide (p.cpp ≤ 4000)),
   (6, decide (p.remakeLimit ≤ 3)),
   (7, p.headAFitted || p.headBFitted),
   (8, decide (1 ≤ p.headFailLimit) && decide (p.headFailLimit ≤ 15)),
   (9, decide (1 ≤ p.purgeSpits)),
   (10, decide (p.gaugeFitted ≤ 1)),
   (11, decide (1 ≤ p.scale)),
   (12, decide (p.initialZero ≤ 4095)),
   (13, decide (p.wFixed ≤ 5000)),
   (14, decide (p.wPm ≤ 250)),
   (15, decide (16 ≤ p.fNom) && decide (p.fNom ≤ 8192)),
   (16, decide (p.fTol ≤ p.fNom / 2)),
   (17, decide (1 ≤ p.filmFaultLimit) && decide (p.filmFaultLimit ≤ 15)),
   (18, decide (p.sealLow ≤ 4000)),
   (19, decide (p.sealHigh ≤ 4000)),
   (20, decide (p.sealHyst ≤ 200) && decide (p.sealLow + 2 * p.sealHyst ≤ p.sealHigh))] ++
  (List.finRange 12).map (fun n => (32 + n.val, p.stationOk n)) ++
  [(21, decide ((p.stations.get carrierStation).position < p.printPos)),
   (22, decide (p.printPos < p.verifyPos)),
   (23, p.stations.toList.all fun s => !s.isFitted || decide (s.position < p.gaugePos)),
   (24, decide (p.verifyPos < p.sealPos) && decide (p.gaugePos < p.sealPos)),
   (25, decide (p.sealPos < p.rejectPos) && decide (p.rejectPos + 1 < p.trackLen)),
   (26, decide (p.tailGaps ≤ p.rejectPos)),
   (27, decide (p.thicknessSum ≤ 60000))]

/-- The field index of the first failing check (R170); none for a valid profile. -/
def Profile.firstFailure (p : Profile) : Option Nat :=
  (p.checks.find? fun c => !c.2).map (·.1)

/-- A head is fitted by the profile. -/
def Profile.headFitted (p : Profile) : Head → Bool
  | .a => p.headAFitted
  | .b => p.headBFitted

/-! ## Pages and records -/

/-- The 64-byte page header. -/
def parseHeader (data : List Byte) : PageHeader :=
  { link := fieldAt data 0x00 8, sequence := fieldAt data 0x08 4, count := fieldAt data 0x0C 1,
    ends := (data.getD 0x0D 0).getLsbD 0, pageState := fieldAt data 0x10 1 }

/-- The request half of a piece record, as read. A line that is declared is kept with its length
byte and its 36 character bytes; the checks of R32 say what of it counts. -/
structure RecordFields where
  serial : Nat
  key : Nat
  size : Nat
  selection : BitVec 16
  trayEnd : Bool
  lineCount : Nat
  rawLines : List (Nat × List Byte)
  deriving DecidableEq, Repr

/-- Line `i` (0 to 4) at 0x10 + 37 i: the length byte, then 36 characters. -/
def parseLine (data : List Byte) (i : Nat) : Nat × List Byte :=
  let o := 0x10 + 37 * i
  (byteAt data o, (List.range 36).map fun j => data.getD (o + 1 + j) 0)

def parseRecord (data : List Byte) : RecordFields :=
  { serial := fieldAt data 0x00 4, key := fieldAt data 0x04 4, size := fieldAt data 0x08 2,
    selection := BitVec.ofNat 16 (fieldAt data 0x0A 2), trayEnd := (data.getD 0x0C 0).getLsbD 0,
    lineCount := fieldAt data 0x0D 1, rawLines := (List.range 5).map (parseLine data) }

/-- The request halves of `count` record slots, read one after the other (224 bytes each). -/
def parseRecords (data : List Byte) (count : Nat) : List RecordFields :=
  (List.range count).map fun k => parseRecord (data.drop (224 * k))

/-- The lines that count: the first line-count lines (R32, R103). -/
def RecordFields.usedLines (r : RecordFields) : List (Nat × List Byte) :=
  r.rawLines.take r.lineCount

/-- The address lines, each cut to its length. -/
def RecordFields.addressLines (r : RecordFields) : List (List Byte) :=
  r.usedLines.map fun l => l.2.take l.1

/-- R103: the bytes over which the check value is computed. -/
def checkBytes (jobTag serial : Nat) (lines : List (List Byte)) : List Byte :=
  [BitVec.ofNat 8 (jobTag / 256), BitVec.ofNat 8 jobTag, BitVec.ofNat 8 (serial / 65536),
   BitVec.ofNat 8 (serial / 256), BitVec.ofNat 8 serial] ++
  (lines.map fun l => BitVec.ofNat 8 l.length :: l).flatten

/-- The sum of each byte times its number plus 1, the first byte having number `i`. -/
def weightedSum : Nat → List Byte → Nat
  | _, [] => 0
  | i, b :: bs => b.toNat * (i + 1) + weightedSum (i + 1) bs

/-- The address check value (R103). -/
def checkValue (jobTag serial : Nat) (lines : List (List Byte)) : Nat :=
  weightedSum 0 (checkBytes jobTag serial lines) % 65521

/-! ## Gauge and film arithmetic -/

/-- R89: the conversion of the gauge's analog input, which is measured in steps of the converter above
the bottom of its range (log 39): an input below the bottom reads 0, one at or above the top 4095. -/
def convert (input : Int) : BitVec 12 := BitVec.ofNat 12 (min input.toNat 4095)

/-- R92: the thickness from the raw reading, the zero and the scale. -/
def thicknessOf (reading z16 scale : Nat) : Nat :=
  if 16 * reading ≤ z16 then 0 else (16 * reading - z16) * scale / 256

/-- R94. -/
def toleranceOf (p : Profile) (expected : Nat) : Nat := p.wFixed + expected * p.wPm / 1000

/-- The verdicts of R95. -/
inductive Verdict where
  | short
  | good
  | over
  deriving DecidableEq, Repr

/-- R95: the verdict on d = t − E against W. -/
def verdictOf (thickness expected tolerance : Nat) : Verdict :=
  if thickness + tolerance < expected then .short
  else if expected + tolerance < thickness then .over
  else .good

/-- R97: the zero moves one eighth of the way, truncated toward zero. -/
def zeroAfter (z16 reading : Nat) : Nat :=
  if z16 ≤ 16 * reading then z16 + (16 * reading - z16) / 8
  else z16 - (z16 - 16 * reading) / 8

/-- The distance between two numbers. -/
def distance (a b : Nat) : Nat := (a - b) + (b - a)

/-- R123: one film count, saturating at both ends. -/
def filmAfter (film : Int) (forward : Bool) : Int :=
  if forward then (if film < Config.countLimit then film + 1 else film)
  else (if -(Config.countLimit : Int) < film then film - 1 else film)

/-- R124: the film count is in window. -/
def filmInWindow (p : Profile) (film : Int) : Bool :=
  decide ((film - p.fNom).natAbs ≤ p.fTol)

/-- R129: the seal state after a temperature. -/
def sealAfter (p : Profile) (ok : Bool) (t : Nat) : Bool :=
  if ok then decide (p.sealLow ≤ t) && decide (t ≤ p.sealHigh)
  else decide (p.sealLow + p.sealHyst ≤ t) && decide (t + p.sealHyst ≤ p.sealHigh)

end Sys2Proof.Machine
end

