-- ==== Sys2Proof/Machine/Ops.lean ====
section
/-! DEFINITION. The named operations every command is built from: the link and its order, attention and
interrupts, counters, the status mirror, the line record, the hold causes, the start of a fetch and
the completion of a request. -/

namespace Sys2Proof.Machine

/-- Applies a change where a condition holds. -/
def applyIf (c : Bool) (f : State → State) (s : State) : State := if c then f s else s

/-- The loaded profile, while a job is loaded: in every line state but IDLE (R1). -/
def State.job (s : State) : Option Profile := if s.line.state = .idle then none else s.profile

/-- Host memory access has stopped (R26). -/
def accessStopped (s : State) : Bool := decide (s.fetcher.state = .linkDown)

/-- The address of the Control Block (R24). -/
def controlBlock (s : State) : Address := s.link.anchorHigh.toNat * 2 ^ 32 + s.link.anchorLow.toNat

/-! ## Sending and counting -/

/-- A message leaves the part. -/
def send (m : Message) (s : State) : State := { s with sent := s.sent ++ [m] }

/-- Adds 1 to the job total and to the interval counter (R189). -/
def bump (c : LineCounter) (s : State) : State :=
  { s with counters := { s.counters with
      total := s.counters.total.set c.index.val (satIncr (s.counters.total.get c.index)) c.index.isLt
      interval := s.counters.interval.set c.index.val (satIncr (s.counters.interval.get c.index))
        c.index.isLt } }

/-- Adds 1 to both copies of a station's counter (R86, R189). -/
def bumpStation (n : Fin 12) (k : StationCounter) (s : State) : State :=
  let i := stationIndex n k
  { s with counters := { s.counters with
      stationTotal := s.counters.stationTotal.set i.val (satIncr (s.counters.stationTotal.get i)) i.isLt
      stationInterval := s.counters.stationInterval.set i.val
        (satIncr (s.counters.stationInterval.get i)) i.isLt } }

/-! ## Attention and the link -/

/-- A bit of ATTENTION is set (R186). Going from clear to set while it is masked in, it sends one
interrupt message, or drops it while the link is not active or no address is configured (R187). -/
def setAttentionBit (c : Attention) (s : State) : State :=
  if s.link.attention.getLsbD c.bit then s
  else
    let t := { s with link := { s.link with attention := s.link.attention ||| c.word } }
    match s.link.interruptAddress with
    | none => t
    | some a =>
      if s.link.mask.getLsbD c.bit && s.link.active then bump .interrupts (send (.interrupt a c) t)
      else t

/-- What the link does with an item that has come to its turn. -/
def performItem (item : LinkItem) (s : State) : State :=
  match item with
  | .write a d => send (.write a d) s
  | .read a n => send (.read a n) s
  | .attention c => setAttentionBit c s

/-- An item waits behind the link traffic handed over before it (R25, log 5). -/
def waitItem (item : LinkItem) (s : State) : State :=
  { s with link := { s.link with waiting := s.link.waiting ++ [item] } }

/-- A write or a read is handed to the Link Interface. None is made while access is stopped (R26)
or while ENABLE is clear (R191). Else it goes out in order: at once while the link is active and
nothing waits, and otherwise behind what waits (R25). -/
def handOver (item : LinkItem) (s : State) : State :=
  if accessStopped s || !s.link.enable then s
  else if s.link.active && s.link.waiting.isEmpty then performItem item s
  else waitItem item s

/-- A cause sets its attention bit once the writes handed over before it have reached host memory,
and at once while access is stopped (R186). -/
def raise (c : Attention) (s : State) : State :=
  if accessStopped s || s.link.waiting.isEmpty then setAttentionBit c s
  else waitItem (.attention c) s

/-- A write of bytes to host memory. -/
def hostWrite (address : Address) (data : List Byte) (s : State) : State :=
  handOver (.write address data) s

/-- A read becomes outstanding and its requests go out in order. -/
def issueRead (kind : ReadKind) (parts : List (Address × Nat)) (s : State) : State :=
  parts.foldl (fun t p => handOver (.read p.1 p.2) t)
    { s with link := { s.link with outstanding := s.link.outstanding ++ [kind] } }

/-- The part waits for the read that a completion belongs to: its data is used, and its failure is a
failure of R26. A dropped read is not waited for (R26, R192). -/
def readPending (origin : ReadOrigin) (kind : ReadKind) (s : State) : Bool :=
  match origin with
  | .awaited => s.link.outstanding.contains kind
  | .abandoned => s.link.abandoned.contains kind
  | .dropped => false

/-- The data of a completion is used: its read is awaited (R30). -/
def dataUsed (origin : ReadOrigin) (kind : ReadKind) (s : State) : Bool :=
  decide (origin = .awaited) && readPending origin kind s

/-- A completion has arrived: the read it belongs to is no longer outstanding (log 6). -/
def takeCompletion (origin : ReadOrigin) (kind : ReadKind) (s : State) : State :=
  match origin with
  | .awaited => { s with link := { s.link with outstanding := s.link.outstanding.erase kind } }
  | .abandoned => { s with link := { s.link with abandoned := s.link.abandoned.erase kind } }
  | .dropped => s

/-! ## The status section (R188) -/

/-- A write to a field of the Control Block, at an offset of the formats of 02. -/
def statusWrite (offset : Nat) (data : List Byte) (s : State) : State :=
  hostWrite (controlBlock s + offset) data s

/-- The bytes of a bank of counters, in index order. -/
def bankBytes (bank : List Word) : List Byte := (bank.map fun c => leBytes 4 c.toNat).flatten

/-- The job totals of both banks, from values taken at one moment (R188). -/
def writeTotals (s : State) : State :=
  let lineBank := bankBytes s.counters.total.toList
  let stationBank := bankBytes s.counters.stationTotal.toList
  statusWrite 0x640 stationBank (statusWrite 0x300 lineBank s)

/-! ## Bundles that the intake looks at, and the hold causes -/

/-- The bundle that is FEEDING or TAILING: at most one (R52). -/
def windowBundle (s : State) : Option Bundle :=
  s.bundles.find? fun b => decide (b.state = .feeding) || decide (b.state = .tailing)

/-- The bundle that is TAILING. -/
def tailingBundle (s : State) : Option Bundle :=
  s.bundles.find? fun b => decide (b.state = .tailing)

/-- A head is ACTIVE. -/
def headActive (s : State) : Bool :=
  decide (s.print.headA.state = .active) || decide (s.print.headB.state = .active)

/-- The conditions of R63 as they stand now. -/
def holdsNow (s : State) : Holds :=
  match s.job with
  | none => .empty
  | some _ =>
    { line := decide (s.line.state = .ready) || decide (s.line.state = .paused) ||
        decide (s.line.state = .halted) || decide (s.line.state = .complete)
      noHead := !headActive s
      bundleTail := match tailingBundle s, s.staging.head? with
        | some b, some r => decide (r.ordinal ≠ b.ordinal)
        | _, _ => false
      tableFull := match s.staging.head? with
        | some r => decide (0 < r.size) && decide (Config.bundleCapacity ≤ s.bundles.length)
        | none => false
      starved := decide (s.line.state = .running) && s.staging.isEmpty
      drain := decide (s.line.state = .draining) }

/-- The hold-cause set is brought up to date and written at each change (R63). STARVED entering the
set begins starvation (R64). It is called at each change of an input of the set: the line state, the
heads, the front or the emptiness of the Staging Queue, the entries and the states of the bundles;
no condition reads the Remake List or the drain kind (log 16). -/
def refreshHolds (s : State) : State :=
  let h := holdsNow s
  let old := s.intake.holds
  if h = old then s
  else applyIf (h.starved && !old.starved) (raise .starved)
    (statusWrite 0x204 (leBytes 1 h.code) { s with intake := { s.intake with holds := h } })

/-! ## The mirrored records -/

/-- The line record changes. The stop and halt causes are written before the line state (R168), and
the job totals at each change of line state (R188). Entry to RUNNING or DRAINING clears the runaway
mark (R127). -/
def setLine (l : Line) (s : State) : State :=
  let old := s.line
  let s := { s with line := l }
  let s := applyIf (decide (l.stop ≠ old.stop)) (statusWrite 0x201 (leBytes 1 l.stop.code)) s
  let s := applyIf (decide (l.halt ≠ old.halt)) (statusWrite 0x202 (leBytes 1 l.halt.code)) s
  applyIf (decide (l.state ≠ old.state))
    (fun s => writeTotals (statusWrite 0x200 (leBytes 1 l.state.code)
      (applyIf (decide (l.state = .running) || decide (l.state = .draining))
        (fun s => { s with wrap := { s.wrap with runaway := false } }) s))) s

/-- A change of the line record with the hold causes that follow it (R63) and its LINE_STATE attention
(R168, R186). -/
def changeLine (l : Line) (s : State) : State :=
  applyIf (decide (l.state ≠ s.line.state)) (raise .lineState) (refreshHolds (setLine l s))

/-- A station entry changes; its state is written at each change (R67). -/
def setStation (n : Fin 12) (e : Station) (s : State) : State :=
  let old := s.stations.get n
  applyIf (decide (e.state ≠ old.state)) (statusWrite (0x210 + n.val) (leBytes 1 e.state.code))
    { s with stations := s.stations.set n.val e n.isLt }

/-- The entry of a head (R104). -/
def State.headEntry (s : State) : Head → HeadEntry
  | .a => s.print.headA
  | .b => s.print.headB

def otherHead : Head → Head
  | .a => .b
  | .b => .a

/-- The place of a head's state in the field at 0x208. -/
def headOffset : Head → Nat
  | .a => 0x208
  | .b => 0x209

/-- A head entry changes; each change of its state is written (R104). -/
def setHead (h : Head) (e : HeadEntry) (s : State) : State :=
  let old := s.headEntry h
  let p := match h with
    | .a => { s.print with headA := e }
    | .b => { s.print with headB := e }
  applyIf (decide (e.state ≠ old.state)) (statusWrite (headOffset h) (leBytes 1 e.state.code))
    { s with print := p }

/-- The gauge changes; its three fields are written whenever any of them changes (R102). The order of
the three writes is DEDUCED (log 29): R102 names none, and step 5 of the procedure for calibrating has
the two zeros equal once the state reads ACTIVE, so that the state is written last. -/
def setGauge (g : Gauge) (s : State) : State :=
  applyIf (decide (g ≠ s.gauge))
    (fun s => statusWrite 0x205 (leBytes 1 g.state.code) (statusWrite 0x20E (leBytes 2 g.zRef)
      (statusWrite 0x20C (leBytes 2 g.z16) s)))
    { s with gauge := g }

/-- The seal state changes, and is written at each change (R133). -/
def setSeal (ok : Bool) (s : State) : State :=
  applyIf (decide (ok ≠ s.wrap.sealOk)) (statusWrite 0x206 (leBytes 1 (sealCode ok)))
    { s with wrap := { s.wrap with sealOk := ok } }

/-- The fetch state changes, and is written (R27, R188). Leaving PAGE_HELD lets go of the held page
and its sequence shown; leaving LINK_REFUSED, the address shown. That the 0 is written before the new fetch
state is the model's (DESIGN CHOICE, log 49). -/
def setFetch (f : FetchState) (s : State) : State :=
  let old := s.fetcher.state
  if f = old then s
  else
    let s := applyIf (decide (old = .pageHeld)) (fun s => statusWrite 0x22C (leBytes 4 0)
      { s with fetcher := { s.fetcher with held := none, heldShown := 0 } }) s
    let s := applyIf (decide (old = .linkRefused)) (fun s => statusWrite 0x230 (leBytes 8 0)
      { s with fetcher := { s.fetcher with refusedShown := 0 } }) s
    statusWrite 0x203 (leBytes 1 f.code) { s with fetcher := { s.fetcher with state := f } }

/-- Every field of the status section with its offset, as LOAD_JOB writes it (R188). -/
def statusFields (s : State) : List (Nat × List Byte) :=
  [(0x201, leBytes 1 s.line.stop.code), (0x202, leBytes 1 s.line.halt.code),
   (0x200, leBytes 1 s.line.state.code), (0x203, leBytes 1 s.fetcher.state.code),
   (0x204, leBytes 1 s.intake.holds.code), (0x206, leBytes 1 (sealCode s.wrap.sealOk)),
   (0x208, leBytes 1 s.print.headA.state.code ++ leBytes 1 s.print.headB.state.code),
   (0x20C, leBytes 2 s.gauge.z16), (0x20E, leBytes 2 s.gauge.zRef),
   (0x205, leBytes 1 s.gauge.state.code),
   (0x210, (s.stations.toList.map fun e => leBytes 1 e.state.code).flatten),
   (0x220, leBytes 2 s.fetcher.pages.length), (0x224, leBytes 4 s.fetcher.closedCount),
   (0x228, leBytes 4 s.fetcher.lastClosed), (0x22C, leBytes 4 s.fetcher.heldShown),
   (0x230, leBytes 8 s.fetcher.refusedShown),
   (0x300, bankBytes s.counters.total.toList), (0x640, bankBytes s.counters.stationTotal.toList),
   (0x410, List.replicate 256 0), (0x510, List.replicate 256 0), (0x700, List.replicate 192 0),
   (0x7C0, List.replicate 192 0), (0x400, leBytes 4 s.counters.snapshots.toNat)]

/-- Writes of fields of the status section, in order. -/
def writeFields (fields : List (Nat × List Byte)) (s : State) : State :=
  fields.foldl (fun t f => statusWrite f.1 f.2 t) s

/-- The status section is written in full (R188). -/
def writeStatus (s : State) : State := writeFields (statusFields s) s

/-! ## Beginning a read of the page chain -/

/-- The conditions of R27 other than the fetch state. -/
def fetchReady (s : State) : Bool :=
  decide (s.line.state ≠ .idle) && decide (s.line.state ≠ .complete) &&
  decide (s.staging.length + Config.pageCapacity ≤ Config.stagingCapacity) &&
  decide (s.fetcher.pages.length < Config.openPageCapacity)

/-- A link word is being read. The fetcher makes one read at a time (log 12). -/
def linkReading (s : State) : Bool := s.link.outstanding.contains .linkWord

/-- R29: an address that fails the checks is not read. Its address is written, then the fetch state, then
PAGE_REFUSED is set: R29 gives them no order (DESIGN CHOICE, log 49). -/
def refuseLink (address : Address) (s : State) : State :=
  raise .pageRefused (setFetch .linkRefused (statusWrite 0x230 (leBytes 8 address)
    { s with fetcher := { s.fetcher with heldLink := 0, refusedShown := address } }))

/-- R30: a page fetch begins with the read of the 64-byte header; each adds to PAGES_READ. -/
def startFetch (address : Address) (s : State) : State :=
  let s := setFetch .fetching (bump .pagesRead s)
  issueRead .pageHeader [(address, 64)]
    { s with fetcher := { s.fetcher with fetch := some { address := address, header := none } } }

/-- The page at an address is checked (R29) and fetched (R30), or refused. -/
def beginFetch (p : Profile) (address : Address) (s : State) : State :=
  if pageAddressOk p.windowBase p.windowLimit address then startFetch address s
  else refuseLink address s

/-- The 8-byte link word of the link source is read (R28). -/
def readLink (s : State) : State :=
  match s.fetcher.source with
  | .none => s
  | .first a => issueRead .linkWord [(a, 8)] s
  | .page a => issueRead .linkWord [(a, 8)] s

/-- What the fetcher does at once when its conditions come to hold in WAITING or stop holding in
POLLING (R27). The first page is fetched without a link read (R28). -/
def fetchStep (s : State) : State :=
  match s.job with
  | none => s
  | some p =>
    match s.fetcher.state with
    | .waiting =>
      if fetchReady s && !linkReading s then
        match s.fetcher.source with
        | .first a => beginFetch p a s
        | _ => if s.fetcher.heldLink = 0 then readLink s else beginFetch p s.fetcher.heldLink s
      else s
    | .polling => if fetchReady s then s else setFetch .waiting s
    | _ => s

/-- What follows at once from a change of the line, the queues or the heads: the fetcher proceeds or
waits (R27); the hold-cause set, brought up to date at each change, is so at the end of a step too
(R63). That the fetcher looks at its conditions once, behind everything else of the event, is the model's
(DESIGN CHOICE, log 51). -/
def settle (s : State) : State := refreshHolds (fetchStep s)

/-! ## Completing a request -/

/-- The address of a request slot (formats of 02). -/
def slotAddress (s : State) (slot : Fin 4) : Address := controlBlock s + 0x100 + 32 * slot.val

/-- R185: the result word, the host tag, the result and DONE are written in that order, the request
in progress becomes absent, REQ_DONE is set and REQUESTS rises. -/
def completeRequest (result : RequestResult) (word : Word) (s : State) : State :=
  match s.request with
  | none => s
  | some r =>
    let a := slotAddress s r.slot
    let s := hostWrite (a + 0x18) (leBytes 4 word.toNat) s
    let s := hostWrite (a + 0x04) (leBytes 4 r.hostTag.toNat) s
    let s := hostWrite (a + 0x01) (leBytes 1 result.code) s
    let s := hostWrite a (leBytes 1 slotDone) s
    bump .requests (raise .reqDone { s with request := none })

/-- The request completes after what its effect brought about at once, so that those writes come
before the slot's (R185). -/
def finish (result : RequestResult) (word : Word) (s : State) : State :=
  completeRequest result word (settle s)

/-- A code or a number as a result word. -/
def finishCode (result : RequestResult) (code : Nat) (s : State) : State :=
  finish result (BitVec.ofNat 32 code) s

/-- A request whose entry gives no result word for this result completes with a free one (log 7). -/
def finishFree (result : RequestResult) (s : State) : State :=
  finish result (Config.freeWord s.freeCount) { s with freeCount := s.freeCount + 1 }

/-- The request in progress, where it has this code and has only been handed to its owner: what the
command of that request carries out. -/
def handedRequest (code : Nat) (s : State) : Option Request :=
  s.request.filter fun r => decide (r.code = code) && decide (r.phase = .handed)

/-- The request in progress passes to another phase. -/
def setPhase (phase : Phase) (s : State) : State :=
  { s with request := s.request.map fun r => { r with phase := phase } }

/-- ABORT_JOB is in progress: it is the request in progress and the line is in a state in which it is
taken (R176, R180, log 18). -/
def abortInProgress (s : State) : Bool :=
  s.request.any (fun r => decide (r.code = 6)) &&
  (decide (s.line.state = .ready) || decide (s.line.state = .paused) ||
   decide (s.line.state = .halted) || decide (s.line.state = .complete))

/-! ## Registers -/

/-- The ID register: vendor code, part code, revision (formats of 02). -/
def idRegister : Word := (0x7D2116 : BitVec 24) ++ Config.revision

/-- What a read of a register offset returns (register table of 02, R191). A read changes nothing. -/
def readRegister (s : State) (offset : Word) : Word :=
  if offset = 0x00 then idRegister
  else if offset = 0x04 then (if s.link.enable then 1 else 0)
  else if offset = 0x08 then s.link.attention.setWidth 32
  else if offset = 0x0C then s.link.mask.setWidth 32
  else if offset = 0x10 then s.link.anchorLow
  else if offset = 0x14 then s.link.anchorHigh
  else 0

end Sys2Proof.Machine
end

