-- ==== Sys2Proof/Machine/PieceOps.lean ====
section
/-! DEFINITION. The shared operations on pieces: pages and their close, outcomes and reports, contexts,
the stacker, bundles and their resolution, and the first-fault rule. -/

namespace Sys2Proof.Machine

/-! ## Completion of the job -/

/-- The job is complete: file exhausted is set, no page is open and the line is in an END drain
(R175). -/
def completionDue (s : State) : Bool :=
  decide (s.line.state = .draining) && decide (s.line.drain = some .endOfFile) &&
    s.line.fileExhausted && s.fetcher.pages.isEmpty

/-- R175: in an END drain with file exhausted and no open page, the line enters COMPLETE. -/
def completionTest (s : State) : State :=
  if completionDue s then
    raise .jobComplete
      (changeLine { s.line with state := .complete, drain := none, runEnable := false } s)
  else s

/-! ## Pages -/

def pageAt (slot : Nat) (s : State) : Option OpenPage :=
  s.fetcher.pages.find? fun p => p.slot == slot

/-- Changes the entry of one list slot. -/
def updatePage (slot : Nat) (f : OpenPage → OpenPage) (s : State) : State :=
  { s with fetcher := { s.fetcher with
      pages := s.fetcher.pages.map fun p => if p.slot = slot then f p else p } }

/-- The open page count is written (R35, R45). -/
def writeOpenCount (s : State) : State := statusWrite 0x220 (leBytes 2 s.fetcher.pages.length) s

/-- The status counts and the attention of a page written CLOSED, its list entry already removed
(R45). -/
def countClosed (sequence : Nat) (s : State) : State :=
  let s := { s with fetcher := { s.fetcher with
    closedCount := s.fetcher.closedCount + 1, lastClosed := sequence } }
  let s := writeOpenCount s
  let s := statusWrite 0x224 (leBytes 4 s.fetcher.closedCount) s
  let s := statusWrite 0x228 (leBytes 4 s.fetcher.lastClosed) s
  raise .pageClosed s

/-- R45: CLOSED is written into the header, the entry leaves the list, the status counts are
written and PAGE_CLOSED is set. The completion test follows (R175). -/
def closePage (p : OpenPage) (s : State) : State :=
  let s := hostWrite (p.address + 0x10) (leBytes 1 pageClosed) s
  let s := { s with fetcher := { s.fetcher with
    pages := s.fetcher.pages.filter fun q => q.slot ≠ p.slot } }
  completionTest (countClosed p.sequence s)

/-- The three conditions of R45. -/
def OpenPage.settled (p : OpenPage) : Bool :=
  p.final == p.count && p.bundlesOpen == 0 && !p.tailRole

/-- The test made after each outcome write, each report write and each release (R45). No page state
is written while access is stopped (R26). -/
def closeIfSettled (slot : Nat) (s : State) : State :=
  match pageAt slot s with
  | none => s
  | some p => if p.settled && !accessStopped s then closePage p s else s

/-- A skipped page that waits for its release is written CLOSED (R41, R45). -/
def releaseSkipped (s : State) : State :=
  match s.fetcher.skipped with
  | none => s
  | some (a, q) =>
    let s := { s with fetcher := { s.fetcher with skipped := none } }
    if accessStopped s then s
    else completionTest (countClosed q (hostWrite (a + 0x10) (leBytes 1 pageClosed) s))

/-- The previous link source leaves the tail role (R35, R41, R45): a list entry other than the
page that takes the role over, or a skipped page. The page close that it brings comes before the next step of
R35 or R41 (DESIGN CHOICE, log 53). -/
def releaseTail (newSlot : Option Nat) (s : State) : State :=
  let s := releaseSkipped s
  match s.fetcher.pages.find? fun p => p.tailRole && decide (some p.slot ≠ newSlot) with
  | none => s
  | some p => closeIfSettled p.slot (updatePage p.slot (fun q => { q with tailRole := false }) s)

/-! ## Outcomes and bundle reports -/

def recordAddress (page : Address) (slot : Nat) : Address := page + 64 + 256 * slot

def outcomeCounter : PieceOutcome → LineCounter
  | .mailed => .mailed
  | .mailedOos => .mailedOos
  | .failed => .failed
  | .notProduced => .notProduced

/-- What R43 writes beside the outcome code. -/
structure OutcomeFields where
  attempts : Nat
  lastFault : Option (FaultCause × Option (Fin 12))
  bypassed : StationSet
  gaugeSkipped : Bool
  verifyCorrected : Bool
  pocketSerial : Word

/-- A record never fed: attempts 0, NONE and 255, no flags, serial 0 (R43). -/
def OutcomeFields.neverFed : OutcomeFields :=
  { attempts := 0, lastFault := none, bypassed := StationSet.empty, gaugeSkipped := false,
    verifyCorrected := false, pocketSerial := 0 }

/-- The fields from the context, with the serial the handing block gives (R43). -/
def Context.outcomeFields (c : Context) (pocketSerial : Word) : OutcomeFields :=
  { attempts := c.attempts, lastFault := c.lastFault, bypassed := c.bypassed,
    gaugeSkipped := c.gaugeSkipped, verifyCorrected := c.verifyCorrected,
    pocketSerial := pocketSerial }

def OutcomeFields.causeCode (f : OutcomeFields) : Nat :=
  match f.lastFault with
  | none => 0
  | some (c, _) => c.code

def OutcomeFields.stationCode (f : OutcomeFields) : Nat :=
  match f.lastFault with
  | some (_, some n) => n.val
  | _ => 255

/-- Bytes 0xE1 to 0xE6 of the outcome half. -/
def OutcomeFields.bytes (f : OutcomeFields) : List Byte :=
  leBytes 1 f.attempts ++ leBytes 1 f.causeCode ++ leBytes 1 f.stationCode ++
    leBytes 2 f.bypassed.toNat ++ leBytes 1 (f.gaugeSkipped.toNat + 2 * f.verifyCorrected.toNat)

/-- The outcome half of one record: the fields, then the code (R43). The fields go in two writes (DESIGN
CHOICE, log 50). -/
def writeOutcomeHalf (record : Address) (f : OutcomeFields) (o : PieceOutcome) (s : State) : State :=
  let s := hostWrite (record + 0xE1) f.bytes s
  let s := hostWrite (record + 0xE8) (leBytes 4 f.pocketSerial.toNat) s
  hostWrite (record + 0xE0) (leBytes 1 o.code) s

/-- A final outcome of a record of an open page, without the close test (R43, R46): the outcome half,
then the header's final count raised by 1, and the entry's. While access is stopped nothing is
written and the final count stays; the outcome is counted all the same (log 19). -/
def putOutcome (pageSlot recordSlot : Nat) (f : OutcomeFields) (o : PieceOutcome) (s : State) :
    State :=
  let s := bump (outcomeCounter o) s
  match pageAt pageSlot s with
  | none => s
  | some p =>
    if accessStopped s then s
    else
      let s := writeOutcomeHalf (recordAddress p.address recordSlot) f o s
      let s := hostWrite (p.address + 0x14) (leBytes 2 (p.final + 1)) s
      updatePage pageSlot (fun q => { q with final := q.final + 1 }) s

/-- A final outcome with the close test that follows it (R43, R45). The page close that it brings comes before
the next step of the rule that hands the outcome over (DESIGN CHOICE, log 53). -/
def writeOutcome (pageSlot recordSlot : Nat) (f : OutcomeFields) (o : PieceOutcome) (s : State) :
    State :=
  closeIfSettled pageSlot (putOutcome pageSlot recordSlot f o s)

/-- R44, without the close test: the counts and the close pocket serial, then the close state, into
the opening record; then bundles-open-here falls by 1. Not written while access is stopped
(R161). The four counts go in one write (DESIGN CHOICE, log 50). -/
def putReport (b : Bundle) (state : CloseState) (closeSerial : Word) (s : State) : State :=
  match pageAt b.pageSlot s with
  | none => s
  | some p =>
    if accessStopped s then s
    else
      let r := recordAddress p.address b.recordSlot
      let counts := leBytes 2 b.delivered ++ leBytes 2 b.outOfSort ++ leBytes 2 b.failed ++
        leBytes 2 b.withdrawn
      let s := hostWrite (r + 0xF0) counts s
      let s := hostWrite (r + 0xFC) (leBytes 4 closeSerial.toNat) s
      let s := hostWrite (r + 0xF8) (leBytes 1 state.code) s
      updatePage b.pageSlot (fun q => { q with bundlesOpen := q.bundlesOpen - 1 }) s

/-- A bundle report with the close test that follows it (R44, R45). -/
def writeReport (b : Bundle) (state : CloseState) (closeSerial : Word) (s : State) : State :=
  closeIfSettled b.pageSlot (putReport b state closeSerial s)

/-! ## Contexts and pockets -/

/-- The context of an entry, where the entry is in use. -/
def contextAt (i : Nat) (s : State) : Option Context := s.contexts[i]?.join

def setContext (i : Nat) (c : Option Context) (s : State) : State :=
  { s with contexts := s.contexts.setIfInBounds i c }

/-- The lowest free context entry (log 24). -/
def freeContextEntry (s : State) : Option Nat :=
  s.contexts.toList.findIdx? fun c => c.isNone

/-- The entry of the Pocket Table that holds a position (R6). -/
def entryIndex (p : Profile) (position : Nat) (s : State) : Nat :=
  (s.track.base + position) % p.trackLen

/-- The pocket record in an entry. -/
def Track.pocketAt (t : Track) (i : Nat) : Option Pocket := t.entries[i]?.join

def Track.setPocket (t : Track) (i : Nat) (k : Option Pocket) : Track :=
  { t with entries := t.entries.setIfInBounds i k }

def setPocket (i : Nat) (k : Pocket) (s : State) : State :=
  { s with track := s.track.setPocket i (some k) }

/-- The lookup of R9: the entry of the pocket whose serial is nonzero and whose tag is this. -/
def findTag (tag : Tag) (s : State) : Option Nat :=
  s.track.entries.toList.findIdx? fun e =>
    e.any fun k => decide (k.serial ≠ 0) && decide (tagOf k.serial = tag)

/-- Drops the reference of a pocket that names a context entry (R14). -/
def Pocket.dropReference (i : Nat) (k : Pocket) : Pocket :=
  if k.subscriber.any fun r => r.context == i then { k with subscriber := none } else k

/-- A context is freed, and every pocket record that names it drops its reference (R14). -/
def freeContext (i : Nat) (s : State) : State :=
  { s with
    contexts := s.contexts.setIfInBounds i none
    track := { s.track with entries := s.track.entries.map fun e => e.map (Pocket.dropReference i) } }

/-- The context that a pocket's reference names. -/
def pocketContext (k : Pocket) (s : State) : Option (Nat × Context) :=
  match k.subscriber with
  | none => none
  | some r => (contextAt r.context s).map fun c => (r.context, c)

/-- Changes the context a pocket names, where it still names one. -/
def updatePocketContext (k : Pocket) (f : Context → Context) (s : State) : State :=
  match pocketContext k s with
  | none => s
  | some (i, c) => setContext i (some (f c)) s

/-- Changes the context a pocket names, while the pocket is that of its subscriber's latest attempt. From the
feed of a remake on, nothing done for the faulted predecessor touches the context (R146; log 37). -/
def updateLatestContext (k : Pocket) (f : Context → Context) (s : State) : State :=
  match pocketContext k s with
  | none => s
  | some (i, c) => if c.lastPocket = k.serial then setContext i (some (f c)) s else s

/-! ## The stacker -/

def commandCounter : StackerCommand → LineCounter
  | .stack => .stacked
  | .oosExit => .oosExits
  | .bundleEject => .ejects
  | .trayBreak => .trayBreaks

/-- A command is issued (R164): its pulse begins if none is in progress, else it is held. It is
counted, and counted again in STACKER_UNREADY while the line reads not ready (R165, R167). -/
def issueCommand (c : StackerCommand) (s : State) : State :=
  let s := bump (commandCounter c) s
  let s := applyIf (!s.inputs.stackerReady) (bump .stackerUnready) s
  match s.stacker.pulse with
  | none => send (.pulse c) { s with stacker := { s.stacker with pulse := some c } }
  | some _ => { s with stacker := { s.stacker with held := s.stacker.held ++ [c] } }

/-! ## Bundles -/

/-- R159. -/
def Bundle.resolved (b : Bundle) : Nat := b.delivered + b.outOfSort + b.failed + b.withdrawn

def bundleAt (ordinal : Nat) (s : State) : Option Bundle :=
  s.bundles.find? fun b => b.ordinal == ordinal

def updateBundle (ordinal : Nat) (f : Bundle → Bundle) (s : State) : State :=
  { s with bundles := s.bundles.map fun b => if b.ordinal = ordinal then f b else b }

def closeCounter : CloseState → LineCounter
  | .complete => .bundlesComplete
  | .short => .bundlesShort
  | .aborted => .bundlesAborted

/-- The last step of every close, after its report: the entry leaves, with which TABLE_FULL is judged
again, BUNDLE_CLOSED, the counter (R161, R166). -/
def removeBundle (b : Bundle) (state : CloseState) (s : State) : State :=
  let s := refreshHolds { s with bundles := s.bundles.filter fun c => c.ordinal ≠ b.ordinal }
  bump (closeCounter state) (raise .bundleClosed s)

/-- R162: COMPLETE when every subscriber was delivered, else SHORT. -/
def Bundle.closeState (b : Bundle) : CloseState :=
  if b.delivered = b.size then .complete else .short

/-- R161: one close by resolution, in the order of its steps. The report write of step 3 may close a page and
bring the entry to COMPLETE (R45, R175), and R161 does not say whether they come before or after step 4: the
model takes them at once, before the removal, BUNDLE_CLOSED and the close counter, so that the job totals
written at that entry lack the close (DESIGN CHOICE, log 53). -/
def closeBundle (b : Bundle) (closeSerial : Word) (s : State) : State :=
  let s := applyIf (decide (0 < b.delivered)) (issueCommand .bundleEject) s
  let s := applyIf b.trayEnd (issueCommand .trayBreak) s
  removeBundle b b.closeState (writeReport b b.closeState closeSerial s)

/-- R160: the DONE_WAITING bundles that come to the front close at once, with the serial of the close
that brought them there (R162). -/
def closeWaiting (closeSerial : Word) : List Bundle → State → State
  | [], s => s
  | b :: rest, s =>
    if b.state = .doneWaiting then closeWaiting closeSerial rest (closeBundle b closeSerial s) else s

/-- The front bundle closes, and the DONE_WAITING bundles behind it (R160). -/
def closeFront (closeSerial : Word) (s : State) : State :=
  match s.bundles with
  | [] => s
  | b :: rest => closeWaiting closeSerial rest (closeBundle b closeSerial s)

/-- A bundle leaves its window for SETTLING: its counter becomes absent, and BUNDLE_TAIL lifts (R57,
R59, R159). -/
def endWindow (ordinal : Nat) (s : State) : State :=
  refreshHolds (updateBundle ordinal (fun b => { b with state := .settling })
    { s with intake := { s.intake with window := none } })

/-- The bundle is in its window. -/
def Bundle.inWindow (b : Bundle) : Bool := decide (b.state = .feeding) || decide (b.state = .tailing)

/-- The resolution test (R159, R160), made after each rise of a bundle's sum. A bundle that is
resolved inside its window leaves it at that moment, and goes on as if it were SETTLING. -/
def resolutionTest (ordinal : Nat) (closeSerial : Word) (s : State) : State :=
  match bundleAt ordinal s with
  | none => s
  | some b =>
    if decide (b.resolved = b.size) && decide (b.state ≠ .doneWaiting) then
      let s := applyIf b.inWindow (endWindow ordinal) s
      if s.bundles.head?.any fun f => f.ordinal == ordinal then closeFront closeSerial s
      else updateBundle ordinal (fun b => { b with state := .doneWaiting }) s
    else s

/-- The Remake List holds an in-sort entry of a bundle (R59). -/
def inSortWaiting (ordinal : Nat) (s : State) : Bool :=
  s.remakes.any fun r => r.ordinal == ordinal && decide (r.sort = .inSort)

/-- R59: a TAILING bundle's window expires when its counter is at or above TAIL_GAPS and no in-sort
remake of it waits. -/
def windowExpired (p : Profile) (b : Bundle) (s : State) : Bool :=
  s.intake.window.any (fun n => decide (p.tailGaps ≤ n)) && !inSortWaiting b.ordinal s

/-- The expiry test (R59). -/
def expiryTest (p : Profile) (s : State) : State :=
  match tailingBundle s with
  | none => s
  | some b =>
    if windowExpired p b s then endWindow b.ordinal s else s

/-- The TAILING test of R55 on one bundle. -/
def Bundle.tailingTest (b : Bundle) : Bundle :=
  if decide (b.state = .feeding) && b.fed + b.withdrawn == b.size then { b with state := .tailing }
  else b

/-- The fed or the withdrawn count of a bundle rises, the TAILING test of R55 is made, and BUNDLE_TAIL is
judged (R63). -/
def countAndTest (ordinal : Nat) (f : Bundle → Bundle) (s : State) : State :=
  refreshHolds (updateBundle ordinal (fun b => (f b).tailingTest) s)

/-- R155: the answer to a sort-class question; an OOS answer counts and resolves. A bundle that is
not in the table, or is already resolved, does not occur (R138, R155); it is answered OOS without a
count (log 26). -/
def askSortClass (ordinal : Nat) (pocketSerial : Word) (s : State) : SortClass × State :=
  match bundleAt ordinal s with
  | none => (.oos, s)
  | some b =>
    match b.state with
    | .feeding => (.inSort, s)
    | .tailing => (.inSort, s)
    | .settling =>
      (.oos, resolutionTest ordinal pocketSerial
        (updateBundle ordinal (fun b => { b with outOfSort := b.outOfSort + 1 }) s))
    | .doneWaiting => (.oos, s)

/-! ## The first-fault rule -/

/-- R137, R138: the sort class is settled, then the entry joins the tail. -/
def queueRemake (i : Nat) (c : Context) (pocketSerial : Word) (s : State) : State :=
  let (sort, s) := match c.sort with
    | .oos => (SortClass.oos, s)
    | .inSort => askSortClass c.ordinal pocketSerial s
  let s := setContext i (some { c with sort := sort }) s
  bump .remakesQueued { s with remakes := s.remakes ++
    [{ context := i, serial := c.serial, ordinal := c.ordinal, sort := sort,
       attempt := c.attempts + 1 }] }

/-- R139: the failed count of the bundle of an in-sort failure rises, FAILED is handed over, the context is
freed; then the resolution test is made. R161 lets the report of a bundle that the failure closes come
before the FAILED outcome or after it; the model hands the outcome first, as for a delivery (R163), so
that both are written while the opening record's page is open (DESIGN CHOICE, log 38). -/
def failSubscriber (i : Nat) (c : Context) (pocketSerial : Word) (s : State) : State :=
  let told := decide (c.sort = .inSort)
  let s := applyIf told (updateBundle c.ordinal fun b => { b with failed := b.failed + 1 }) s
  let s := writeOutcome c.pageSlot c.recordSlot (c.outcomeFields pocketSerial) .failed s
  applyIf told (resolutionTest c.ordinal pocketSerial) (freeContext i s)

/-- REMAKE_LIMIT of the loaded profile. -/
def remakeLimit (s : State) : Nat := (s.job.map Profile.remakeLimit).getD 0

/-- R136: the pocket becomes FAULTED with the fault of the report, the context takes it as its last
fault, and the subscriber is queued for a remake or has failed. -/
def firstFault (i : Nat) (k : Pocket) (f : PocketFault) (s : State) : State :=
  let s := bump .firstFaults (setPocket i { k with state := .faulted, fault := some f } s)
  match pocketContext k s with
  | none => s
  | some (j, c) =>
    let c := { c with lastFault := some (f.cause, f.station) }
    let s := setContext j (some c) s
    if c.attempts < 1 + remakeLimit s then queueRemake j c k.serial s
    else failSubscriber j c k.serial s

/-- R135: a fault handed over for the pocket in an entry. For a LIVE pocket it is the first fault,
for a FAULTED pocket a later fault, which is only counted (R140). Other pockets take none (R11). -/
def handFault (i : Nat) (cause : FaultCause) (station : Option (Fin 12)) (suspect : Bool)
    (s : State) : State :=
  match s.track.pocketAt i with
  | none => s
  | some k =>
    match k.state with
    | .live => firstFault i k { cause := cause, station := station, suspect := suspect } s
    | .faulted => bump .laterFaults s
    | _ => s

end Sys2Proof.Machine
end

