-- ==== Sys2Proof/Machine/LineOps.lean ====
section
/-! DEFINITION. What the Line Controller does with stop causes, halt causes, drains and the end of the
file (10), and what the Print and Read-Back Unit does with its heads (06). -/

namespace Sys2Proof.Machine

/-! ## Stops and drains -/

/-- Entry to PAUSED from RUNNING or DRAINING with a stop cause (R173); counted in PAUSES (R182). -/
def enterPaused (stop : StopCause) (s : State) : State :=
  settle (changeLine { s.line with state := .paused, drain := none, stop := stop,
                                   runEnable := false } (bump .pauses s))

/-- No pocket on the track is LIVE or FAULTED (R174). -/
def trackClear (s : State) : Bool :=
  s.track.entries.toList.all fun e =>
    e.all fun k => decide (k.state ≠ .live) && decide (k.state ≠ .faulted)

/-- An operator drain has ended (R174). -/
def drainEndDue (s : State) : Bool :=
  decide (s.line.state = .draining) && decide (s.line.drain = some .operator) && trackClear s

/-- The test of an operator drain (R174), made at its entry and after each pitch event. After a first
fault the track holds the pocket just FAULTED, so the test made there never holds. -/
def drainEndTest (s : State) : State :=
  if drainEndDue s then
    enterPaused s.line.stop s
  else s

/-- Entry to an operator drain (R174), with run enable on; counted in DRAINS. -/
def enterOperatorDrain (stop : StopCause) (halt : HaltCause) (s : State) : State :=
  drainEndTest (settle (changeLine { s.line with state := .draining, drain := some .operator,
                                                 stop := stop, halt := halt, runEnable := true }
    (bump .drains s)))

/-- NO_PRINT as the Line Controller takes it (R174). -/
def takeNoPrint (s : State) : State :=
  match s.line.state with
  | .running => enterOperatorDrain .noPrint s.line.halt s
  | .draining =>
    if s.line.drain = some .operator then setLine { s.line with stop := .noPrint } s
    else enterOperatorDrain .noPrint s.line.halt s
  | _ => s

/-- A stop cause raised to the Line Controller (R173, R174). -/
def raiseStop (c : StopCause) (s : State) : State :=
  if c = .noPrint then takeNoPrint s
  else match s.line.state with
    | .running => enterPaused c s
    | .draining => enterPaused c s
    | _ => s

/-! ## Halts -/

/-- The SUSPECT marking of one position (R147). -/
def markSuspect (p : Profile) (s : State) (position : Nat) : State :=
  let i := entryIndex p position s
  match s.track.pocketAt i with
  | none => s
  | some k =>
    if k.state = .live then handFault i .suspect none true (bump .suspectFaults s) else s

/-- The SUSPECT marking (R147): positions REJECT − 1 down to 0. -/
def suspectMarking (s : State) : State :=
  match s.job with
  | none => s
  | some p => (List.range p.rejectPos).reverse.foldl (markSuspect p) s

/-- Halt entry (R176), one event in its order. Step 6 sets HALTED and LINE_STATE and does not say which bit,
and which interrupt message, is first: the model sets HALTED, then LINE_STATE (DESIGN CHOICE, log 49). -/
def haltEntry (c : HaltCause) (s : State) : State :=
  let s := setLine { s.line with state := .halted, drain := none, halt := c, runEnable := false,
                                 quickStop := true } (bump .halts s)
  let s := suspectMarking (refreshHolds s)
  let s := { s with print := { s.print with window := [] } }
  settle (raise .lineState (raise .halted s))

/-- A halt cause raised to the Line Controller (R176). In IDLE and in HALTED, and while ABORT_JOB is
in progress (R180), it changes nothing there. -/
def raiseHalt (c : HaltCause) (s : State) : State :=
  match s.line.state with
  | .idle => s
  | .halted => s
  | _ => if abortInProgress s then s else haltEntry c s

/-! ## The end of the file -/

/-- FILE_END as the Line Controller takes it (R175). -/
def takeFileEnd (s : State) : State :=
  if s.line.state = .running then
    completionTest (changeLine { s.line with fileExhausted := true, state := .draining,
                                             drain := some .endOfFile, stop := .none } s)
  else { s with line := { s.line with fileExhausted := true } }

/-- The file is exhausted when END is seen and the Staging Queue is empty (R36); reported once. -/
def fileEndDue (s : State) : Bool :=
  s.job.isSome && s.fetcher.endSeen && s.staging.isEmpty && !s.line.fileExhausted

/-- FILE_END is reported at the moment it is due (R36). -/
def fileEndTest (s : State) : State :=
  if fileEndDue s then
    takeFileEnd s
  else s

/-! ## Heads -/

/-- A head that is FAILED or OFF. -/
def HeadEntry.lost (e : HeadEntry) : Bool :=
  decide (e.state = .failed) || decide (e.state = .off)

/-- R113, steps 1 and 2: the head taken out of printing purges, or fails at what would be its third
purge. -/
def swappedOut (p : Profile) (e : HeadEntry) : HeadEntry :=
  if e.purges < 2 then
    { state := .purging, purges := e.purges + 1, countdown := p.purgeSpits, run := 0 }
  else { e with state := .failed, run := 0 }

/-- A head swap of an ACTIVE head, as one event (R113), with NO_HEAD judged after it (R63), and the
NO_PRINT cause it may raise (R117). -/
def swapHead (p : Profile) (h : Head) (s : State) : State :=
  let e := s.headEntry h
  let s := applyIf (decide (e.purges < 2)) (bump .purges) (setHead h (swappedOut p e) s)
  let o := s.headEntry (otherHead h)
  let s := applyIf (decide (o.state = .standby))
    (setHead (otherHead h) { o with state := .active }) s
  let s := bump .headSwaps (raise .headChange (refreshHolds s))
  applyIf (s.print.headA.lost && s.print.headB.lost) (raiseStop .noPrint) s

/-- The end of a purge (R115): STANDBY, or ACTIVE at once if no head is ACTIVE. R115 has the head become
STANDBY and then ACTIVE, and R104 has each change of a head state written; whether a STANDBY that does not
last is such a change is open. The model makes one change and writes ACTIVE only (DESIGN CHOICE, log 46).
HEAD_CHANGE follows the hold byte (DESIGN CHOICE, log 49). -/
def endPurge (h : Head) (s : State) : State :=
  let e := s.headEntry h
  let state := if headActive s then HeadState.standby else .active
  raise .headChange (refreshHolds (setHead h { e with state := state, countdown := 0 } s))

/-! ## Stations -/

/-- The station acts as BYPASS at a fault. MAIN and CARRIER act as STOP whatever the profile holds
(R81). -/
def Station.bypasses (n : Fin 12) (e : Station) : Bool :=
  e.bypassAction && n != mainStation && n != carrierStation

/-- A station fault (R78), one event: the cause is entered, the action decides the state, and under
STOP the STATION stop cause is raised. R78 names the STATION_FAULT attention with the cause, before the
action. The model writes the new state into its status field, then sets the bit with its interrupt, then
raises STATION (DESIGN CHOICE, log 43). -/
def stationFault (n : Fin 12) (cause : StationCause) (s : State) : State :=
  let e := s.stations.get n
  let s := bump .stationFaults s
  if e.bypasses n then
    raise .stationFault (setStation n { e with cause := some cause, state := .bypassed,
                                               misses := 0, doubles := 0 } s)
  else
    raiseStop .station
      (raise .stationFault (setStation n { e with cause := some cause, state := .faulted } s))

end Sys2Proof.Machine
end

