-- ==== Sys2Proof/Machine/FetchOps.lean ====
section
/-! DEFINITION. The shared operations of the Page Fetcher (02): validation, acceptance and refusal of a
page, the held page's two requests, and the failure of a host memory access. -/

namespace Sys2Proof.Machine

/-! ## Validation -/

/-- What is carried forward record by record through a page (R33): the serial before, the tail
bundle, orphan mode, the next ordinal. -/
structure FilePosition where
  before : Option Nat
  tail : Option TailBundle
  orphan : Bool
  nextOrdinal : Nat
  deriving DecidableEq, Repr

/-- The header checks, in the order of R31. -/
def checkHeader (p : Profile) (f : Fetcher) (address : Address) (h : PageHeader) :
    Option RefusalCause :=
  if h.pageState ≠ pageHost ∧ h.pageState ≠ pageRefused then some .state
  else if h.sequence ≠ f.expected then some .sequence
  else if h.count < 1 ∨ 32 < h.count then some .count
  else if p.windowLimit < address + 64 + 256 * h.count then some .extent
  else none

/-- The SERIAL check (R32). -/
def serialOk (f : Fetcher) (before : Option Nat) (serial : Nat) : Bool :=
  decide (1 ≤ serial) && decide (serial ≤ 16777215) &&
  match before with
  | some b => serial == b + 1
  | none =>
    match f.lastSerial with
    | none => true
    | some l => serial == l + 1 || (f.skippedSince && decide (l < serial))

/-- Bundle continuity of one record (R33): the position after it, or none where it fails. -/
def continueBundle (pos : FilePosition) (r : RecordFields) : Option FilePosition :=
  let pos := { pos with before := some r.serial }
  if 1 ≤ r.size then
    if pos.orphan || pos.tail.all fun t => t.read == t.size then
      some { pos with
        tail := some { key := r.key, size := r.size, read := 1, ordinal := pos.nextOrdinal },
        orphan := false, nextOrdinal := pos.nextOrdinal + 1 }
    else none
  else if pos.orphan then some pos
  else match pos.tail with
    | none => none
    | some t =>
      if r.key = t.key ∧ t.read < t.size then
        some { pos with tail := some { t with read := t.read + 1 } }
      else none

/-- The SELECTION check (R32): MAIN and CARRIER are named, and only fitted stations are. -/
def selectionOk (p : Profile) (selection : BitVec 16) : Bool :=
  selection.getLsbD mainStation.val && selection.getLsbD carrierStation.val &&
  (List.finRange 16).all fun n => !selection.getLsbD n.val ||
    (if h : n.val < 12 then (p.stations.get ⟨n.val, h⟩).isFitted else false)

/-- The checks of one record, in the order of R32. -/
def checkRecord (p : Profile) (f : Fetcher) (pos : FilePosition) (r : RecordFields) :
    Except RefusalCause FilePosition :=
  if !serialOk f pos.before r.serial then .error .serial
  else if r.key = 0 then .error .key
  else if 999 < r.size then .error .size
  else match continueBundle pos r with
    | none => .error .bundle
    | some next =>
      if !selectionOk p r.selection then .error .selection
      else if r.lineCount < 1 ∨ 5 < r.lineCount then .error .lines
      else if r.usedLines.any fun l => decide (36 < l.1) then .error .length
      else if r.addressLines.any fun l =>
          l.any fun c => decide (c.toNat < 32) || decide (126 < c.toNat) then .error .character
      else .ok next

/-- The records in slot order from `slot`; the first failing check gives the cause and the slot
(R32). -/
def checkRecords (p : Profile) (f : Fetcher) :
    Nat → FilePosition → List RecordFields → Except (RefusalCause × Nat) FilePosition
  | _, pos, [] => .ok pos
  | slot, pos, r :: rest =>
    match checkRecord p f pos r with
    | .error c => .error (c, slot)
    | .ok next => checkRecords p f (slot + 1) next rest

/-- The position a fetch starts from. -/
def startPosition (f : Fetcher) : FilePosition :=
  { before := none, tail := f.tail, orphan := f.orphan, nextOrdinal := f.nextOrdinal }

/-- All the record checks of a page, with the END check after its last record (R32, R33). -/
def checkPage (p : Profile) (f : Fetcher) (h : PageHeader) (records : List RecordFields) :
    Except (RefusalCause × Nat) FilePosition :=
  match checkRecords p f 0 (startPosition f) records with
  | .error e => .error e
  | .ok pos =>
    if h.ends && !pos.orphan && !(pos.tail.any fun t => t.read == t.size) then
      .error (.bundle, h.count - 1)
    else .ok pos

/-! ## Refusal and acceptance -/

/-- The header fields the part writes: page state, refusal cause and record index in one write, then the final
count (their grouping is the model's: DESIGN CHOICE, log 50). -/
def writeHeader (address : Address) (state cause index : Nat) (s : State) : State :=
  hostWrite (address + 0x14) (leBytes 2 0)
    (hostWrite (address + 0x10) (leBytes 1 state ++ leBytes 1 cause ++ leBytes 1 index) s)

/-- R34: the page is refused and held. R34 gives its status writes and PAGE_REFUSED no order: the model writes
the held page sequence, then the fetch state, then sets the bit (DESIGN CHOICE, log 49). -/
def refusePage (address : Address) (h : PageHeader) (cause : RefusalCause) (index : Nat)
    (s : State) : State :=
  let s := writeHeader address pageRefused cause.code index s
  let q := s.fetcher.expected
  let s := statusWrite 0x22C (leBytes 4 q) { s with fetcher := { s.fetcher with
    fetch := none, heldShown := q,
    held := some { address := address, sequence := q, count := h.count, ends := h.ends,
                   cause := cause } } }
  bump .pagesRefused (raise .pageRefused (setFetch .pageHeld s))

/-- The lowest free slot of the Open Page List (log 24). -/
def freePageSlot (s : State) : Nat :=
  ((List.range Config.openPageCapacity).find? fun n => (pageAt n s).isNone).getD
    Config.openPageCapacity

/-- The queue entry of a record (R37), with the ordinal of its bundle (R35). -/
def stagedOf (p : Profile) (pageSlot slot : Nat) (ordinal : Nat) (r : RecordFields) : Staged :=
  { serial := r.serial, key := r.key, size := r.size, selection := r.selection.truncate 12,
    trayEnd := r.trayEnd, lines := r.addressLines, ordinal := ordinal, pageSlot := pageSlot,
    recordSlot := slot, checkValue := checkValue p.jobTag r.serial r.addressLines,
    broken := false, withdrawn := 0 }

/-- R35, step 3, for one record: an orphan continuation is withdrawn; any other record joins the tail
of the Staging Queue, with which starvation ends (R63, R64). -/
def takeRecord (p : Profile) (pageSlot slot : Nat) (pos : FilePosition) (r : RecordFields)
    (s : State) : State :=
  if r.size = 0 ∧ pos.orphan then
    writeOutcome pageSlot slot .neverFed .notProduced s
  else
    let ordinal := if 1 ≤ r.size then pos.nextOrdinal else (pos.tail.map TailBundle.ordinal).getD 0
    let s := applyIf (decide (1 ≤ r.size))
      (updatePage pageSlot fun q => { q with bundlesOpen := q.bundlesOpen + 1 }) s
    refreshHolds { s with staging := s.staging ++ [stagedOf p pageSlot slot ordinal r] }

/-- R35, step 3, in slot order. -/
def takeRecords (p : Profile) (pageSlot : Nat) :
    Nat → FilePosition → List RecordFields → State → State
  | _, _, [], s => s
  | slot, pos, r :: rest, s =>
    takeRecords p pageSlot (slot + 1) ((continueBundle pos r).getD pos) rest
      (takeRecord p pageSlot slot pos r s)

/-- R35: the page is accepted, in the order of its steps. Four points have no place among the steps, and the
model gives each one. R45 releases an END page at its own acceptance: here with END seen set and just before
the fetch state ENDED is written, so that CLOSED may be written before it (DESIGN CHOICE, log 45). R36 reports
FILE_END at the moment the file is exhausted, by an acceptance that leaves the queue empty: here after step 7
(DESIGN CHOICE, log 45). PAGES_LOADED rises last, after the consequences of FILE_END, so that the job totals
written at a line change they bring do not include the page (DESIGN CHOICE, log 44). The header is two
writes (DESIGN CHOICE, log 50). -/
def acceptPage (p : Profile) (address : Address) (h : PageHeader) (records : List RecordFields)
    (pos : FilePosition) (s : State) : State :=
  let s := writeHeader address pageLoaded 0 255 s
  let slot := freePageSlot s
  let start := startPosition s.fetcher
  let page : OpenPage :=
    { slot := slot, address := address, sequence := h.sequence, count := h.count, final := 0,
      bundlesOpen := 0, tailRole := true, ends := h.ends }
  let s := { s with fetcher := { s.fetcher with
    fetch := none, pages := s.fetcher.pages ++ [page] } }
  let s := takeRecords p slot 0 start records s
  let s := { s with fetcher := { s.fetcher with
    lastSerial := pos.before, skippedSince := false, tail := pos.tail, orphan := pos.orphan,
    nextOrdinal := pos.nextOrdinal, expected := s.fetcher.expected + 1 } }
  let s := releaseTail (some slot) s
  let s := { s with fetcher := { s.fetcher with source := .page address, heldLink := h.link } }
  let s := if h.ends then
      setFetch .ended (releaseTail none
        { s with fetcher := { s.fetcher with endSeen := true } })
    else setFetch .waiting s
  bump .pagesLoaded (fileEndTest (writeOpenCount s))

/-! ## The held page -/

/-- R42, R158: a bundle in the table is told of a withdrawal; the TAILING test, the expiry test of a
move to TAILING (R59) and the resolution test follow. -/
def withdrawBundle (p : Profile) (ordinal n : Nat) (s : State) : State :=
  let s := countAndTest ordinal (fun b => { b with broken := true, withdrawn := b.withdrawn + n }) s
  resolutionTest ordinal 0 (expiryTest p s)

/-- The opening record of a bundle is still in the Staging Queue. -/
def isOpeningOf (ordinal : Nat) (r : Staged) : Bool := r.ordinal == ordinal && decide (1 ≤ r.size)

/-- R42: the tail bundle is judged at a skip. -/
def breakTail (p : Profile) (s : State) : State :=
  if s.fetcher.orphan then s
  else match s.fetcher.tail with
    | none => s
    | some t =>
      if t.read = t.size then s
      else
        let n := t.size - t.read
        if s.staging.any (isOpeningOf t.ordinal) then
          { s with staging := s.staging.map fun r =>
              if isOpeningOf t.ordinal r then
                { r with broken := true, withdrawn := r.withdrawn + n }
              else r }
        else withdrawBundle p t.ordinal n s

/-- The refusal causes whose page's records are written at a skip (R41). -/
def RefusalCause.ofRecord : RefusalCause → Bool
  | .state | .sequence | .count | .extent => false
  | .serial | .key | .size | .bundle | .selection | .lines | .length | .character => true

/-- One record of a skipped page is written NOT_PRODUCED (R41, R43). -/
def skipRecord (page : Address) (s : State) (slot : Nat) : State :=
  let s := writeOutcomeHalf (recordAddress page slot) .neverFed .notProduced s
  bump .notProduced (hostWrite (page + 0x14) (leBytes 2 (slot + 1)) s)

/-- The number of records a skip writes NOT_PRODUCED (R41). -/
def HeldPage.recordsWritten (h : HeldPage) : Nat := if h.cause.ofRecord then h.count else 0

/-- R41, step 1: the records are written in slot order. -/
def skipRecords (h : HeldPage) (s : State) : State :=
  (List.range h.recordsWritten).foldl (skipRecord h.address) s

/-- R41, in the order of its steps. R45 releases a page that carries END at its own skip and does not place
that among them: the model does it with END seen set and just before the fetch state ENDED is written, so
that CLOSED may be written before it (DESIGN CHOICE, log 45). R41 does not place PAGES_SKIPPED either: the
model counts after the consequences of FILE_END, so that the job totals written at a line change they bring do
not include the skip (DESIGN CHOICE, log 44). -/
def skipHeldPage (p : Profile) (h : HeldPage) (s : State) : State :=
  let s := skipRecords h s
  let s := breakTail p s
  let s := { s with fetcher := { s.fetcher with
    orphan := true, expected := s.fetcher.expected + 1, skippedSince := true } }
  let s := releaseTail none s
  let s := { s with fetcher := { s.fetcher with
    source := .page h.address, heldLink := 0, skipped := some (h.address, h.sequence) } }
  let s := if h.ends then
      fileEndTest (setFetch .ended (releaseSkipped
        { s with fetcher := { s.fetcher with endSeen := true } }))
    else setFetch .waiting s
  finishCode .doneOk h.recordsWritten (bump .pagesSkipped s)

/-- SKIP_PAGE as its owner judges it (R41). -/
def serveSkip (p : Profile) (s : State) : State :=
  match s.fetcher.state, s.fetcher.held, s.request with
  | .pageHeld, some h, some r =>
    if r.param0 = s.fetcher.heldShown then skipHeldPage p h s else finishFree .badValue s
  | _, _, _ => finishFree .badState s

/-- A retry whose page address has been taken: the address is refused, or its fetch goes on (R40). -/
def retryAddress (p : Profile) (address : Address) (s : State) : State :=
  let s := beginFetch p address s
  if s.fetcher.state = .linkRefused then finishCode .doneOk 2 s else setPhase .retryFetch s

/-- RETRY_PAGE as its owner judges it (R40). While no page has been accepted or skipped the profile's
first page address is taken, else the link word is read. -/
def serveRetry (p : Profile) (s : State) : State :=
  if s.fetcher.state = .pageHeld ∨ s.fetcher.state = .linkRefused then
    match s.fetcher.source with
    | .first a => retryAddress p a s
    | _ => setPhase .retryLink (readLink s)
  else finishFree .badState s

/-- The end of a page fetch: the retry it belongs to completes (R40), or a request that waited for it
is carried out against the fetch state it left (R30). -/
def afterFetch (p : Profile) (s : State) : State :=
  match s.request with
  | none => s
  | some r =>
    match r.phase with
    | .retryFetch => finishCode .doneOk (if s.fetcher.state = .pageHeld then 1 else 0) s
    | .awaitingFetch => if r.code = 8 then serveSkip p s else serveRetry p s
    | _ => s

/-! ## Failure of host memory access -/

/-- The attention bits that waited for link traffic are set when that traffic is discarded (R186). -/
def releaseAttention : List LinkItem → State → State
  | [], s => s
  | .attention c :: rest, s => releaseAttention rest (setAttentionBit c s)
  | .write _ _ :: rest, s => releaseAttention rest s
  | .read _ _ :: rest, s => releaseAttention rest s

/-- What becomes of a request that the failure reaches (R169, R185, log 20): LOAD_JOB is abandoned,
a request that waits for the fetcher completes without its writes. -/
def failRequest (s : State) : State :=
  match s.request with
  | none => s
  | some r =>
    match r.phase with
    | .handed => s
    | .readingProfile => { s with request := none }
    | _ => finishFree .badState s

/-- Host memory access stops: what waits is discarded, what is outstanding is waited for no longer and
will be dropped, and the fetch state becomes LINK_DOWN (R26). -/
def stopAccess (s : State) : State :=
  { s with
    link := { s.link with outstanding := [], abandoned := [], waiting := [] }
    fetcher := { s.fetcher with state := .linkDown, fetch := none, held := none } }

/-- The first failure of a host memory access (R26): access stops, the LINK halt cause is raised and
LINK_FAULT is set. A later failure changes nothing further. -/
def accessFailure (s : State) : State :=
  if accessStopped s then s
  else
    let waiting := s.link.waiting
    let s := releaseAttention waiting (stopAccess s)
    settle (failRequest (raise .linkFault (raiseHalt .link s)))

end Sys2Proof.Machine
end

