-- ==== Sys2Proof/Machine/Registers.lean ====
section
/-! DEFINITION. The meanings of the reset and register commands (02, 11). -/

namespace Sys2Proof.Machine

/-- What one command answers. -/
abbrev Answer := Host.Outcome State Fault Refusal

/-- Power-on (R168 and the rules of each block). The input lines and the link's own level stand
outside the part and stay as they are; no interrupt address is configured (log 9, log 10). -/
def powerOnState (s : State) : State :=
  { State.reset with
    pending := s.pending, inputs := s.inputs, sent := s.sent, freeCount := s.freeCount,
    link := { Link.reset with active := s.link.active } }

/-- A soft reset (R192): every block has its power-on values. The PCIe link configuration is kept, what
waits is discarded, and no read is waited for any longer: the completions of reads outstanding are
those of dropped reads, which change nothing (log 6). -/
def softResetState (s : State) : State :=
  { powerOnState s with
    link := { Link.reset with
      active := s.link.active, interruptAddress := s.link.interruptAddress } }

/-- The ENABLE bit of a CONTROL write (R191). -/
def writeEnable (bit : Bool) (s : State) : State :=
  if bit then { s with link := { s.link with enable := true } }
  else if decide (s.line.state = .idle) && s.request.isNone then
    { s with link := { s.link with enable := false } }
  else s

/-- A host write to ATTENTION clears each bit written as 1 (R186). -/
def clearAttention (value : Word) (s : State) : State :=
  { s with link := { s.link with attention := s.link.attention &&& ~~~(value.truncate 12) } }

/-- A host write to ATTENTION_MASK (R187, log 23). -/
def writeMask (value : Word) (s : State) : State :=
  { s with link := { s.link with mask := value.truncate 12 } }

/-- A write to an anchor register, taken in IDLE with ENABLE clear (R24). -/
def writeAnchor (high : Bool) (value : Word) (s : State) : State :=
  if decide (s.line.state = .idle) && !s.link.enable then
    if high then { s with link := { s.link with anchorHigh := value } }
    else { s with link := { s.link with anchorLow := value &&& 0xFFFFF000 } }
  else s

/-- A CONTROL write (R191). -/
def writeControl (value : Word) (s : State) : State :=
  if value.getLsbD 1 then softResetState s else writeEnable (value.getLsbD 0) s

/-- A write to any offset (register table of 02, R191). -/
def writeRegister (offset value : Word) (s : State) : State :=
  if offset = 0x0C then writeMask value s
  else if offset = 0x04 then writeControl value s
  else if offset = 0x08 then clearAttention value s
  else if offset = 0x10 then writeAnchor false value s
  else if offset = 0x14 then writeAnchor true value s
  else s

/-- POWER_ON. -/
def execPowerOn (s : State) : Answer := .next (powerOnState s)

/-- SOFT_RESET, whatever the ENABLE bit of the same write (R191). -/
def execSoftReset (_enableBit : Bool) (s : State) : Answer := .next (softResetState s)

/-- ENABLE. -/
def execEnable (bit : Bool) (s : State) : Answer := .next (writeEnable bit s)

/-- ATTENTION_CLEAR. -/
def execAttentionClear (value : Word) (s : State) : Answer := .next (clearAttention value s)

/-- ANCHOR_WRITE. -/
def execAnchorWrite (high : Bool) (value : Word) (s : State) : Answer :=
  .next (writeAnchor high value s)

/-- REGISTER_WRITE: the mask is stored; ID and an offset above the six registers are ignored (R191).
An offset of another register does what that register's own command does. -/
def execRegisterWrite (offset value : Word) (s : State) : Answer :=
  .next (writeRegister offset value s)

end Sys2Proof.Machine
end

