-- ==== Sys2Proof/Machine/FetchEvents.lean ====
section
/-! DEFINITION. The meanings of the Page Fetcher's commands, of failed reads and of the PCIe link (02, 11).
A completion of a read that is not awaited only ends that read (log 6). -/

namespace Sys2Proof.Machine

/-- FETCH_START: the fetcher proceeds where the conditions of R27 hold in WAITING. -/
def execFetchStart (s : State) : Answer := .next (fetchStep s)

/-- LINK_POLL: in POLLING, while the conditions of R27 hold, the link word is read again (R28). -/
def pollLink (s : State) : State :=
  if decide (s.fetcher.state = .polling) && s.job.isSome && fetchReady s && !linkReading s then
    readLink s
  else s

/-- LINK_POLL. -/
def execLinkPoll (s : State) : Answer := .next (pollLink s)

/-! ## The link word -/

/-- The held link becomes the value read (R28). -/
def holdLink (v : Address) (s : State) : State :=
  { s with fetcher := { s.fetcher with heldLink := v } }

/-- The link word of a RETRY_PAGE has been read (R40). -/
def takeRetryLink (p : Profile) (v : Address) (s : State) : State :=
  if v = 0 then finishCode .doneOk 3 (setFetch .polling (holdLink 0 s))
  else retryAddress p v (holdLink v s)

/-- A link word has been read by the fetcher itself (R28). A 0 leads to POLLING, or to WAITING where
the conditions of R27 have stopped holding; a nonzero word to the fetch of the page it names. -/
def takeLinkWord (p : Profile) (v : Address) (s : State) : State :=
  let s := holdLink v s
  if !fetchReady s then setFetch .waiting s
  else if v = 0 then setFetch .polling s
  else beginFetch p v s

/-- The request in progress is a RETRY_PAGE that waits for its link word (R40). -/
def retryingLink (s : State) : Bool := s.request.any fun r => decide (r.phase = .retryLink)

/-- The link word a completed read carries is taken, and what follows at once. -/
def takeLinkRead (p : Profile) (v : Address) (s : State) : State :=
  settle (if retryingLink s then takeRetryLink p v s else takeLinkWord p v s)

/-- LINK_READ_DONE. -/
def execLinkReadDone (completed : CompletedRead) (s : State) : Answer :=
  let t := takeCompletion completed.origin .linkWord s
  match dataUsed completed.origin .linkWord s, t.job with
  | true, some p => .next (takeLinkRead p (fieldAt completed.data 0 8) t)
  | _, _ => .next t

/-! ## The page -/

/-- The places of the request halves of the first record slots (R30). -/
def recordParts (page : Address) (count : Nat) : List (Address × Nat) :=
  (List.range count).map fun k => (recordAddress page k, 224)

/-- The header is checked (R31): the page is refused, or its records are read (R30). -/
def takeHeader (p : Profile) (f : Fetch) (h : PageHeader) (s : State) : State :=
  match checkHeader p s.fetcher f.address h with
  | some cause => settle (afterFetch p (refusePage f.address h cause 255 s))
  | none =>
    issueRead .pageRecords (recordParts f.address h.count)
      { s with fetcher := { s.fetcher with fetch := some { f with header := some h } } }

/-- HEADER_READ_DONE. -/
def execHeaderReadDone (completed : CompletedRead) (s : State) : Answer :=
  let t := takeCompletion completed.origin .pageHeader s
  match dataUsed completed.origin .pageHeader s, t.job, t.fetcher.fetch with
  | true, some p, some f => .next (takeHeader p f (parseHeader completed.data) t)
  | _, _, _ => .next t

/-- The records are checked (R32, R33): the page is refused or accepted (R34, R35), and what waited for
the fetch goes on (R30, R40). -/
def takePage (p : Profile) (address : Address) (h : PageHeader) (records : List RecordFields)
    (s : State) : State :=
  settle (afterFetch p (match checkPage p s.fetcher h records with
    | .error (cause, index) => refusePage address h cause index s
    | .ok pos => acceptPage p address h records pos s))

/-- RECORDS_READ_DONE. -/
def execRecordsReadDone (completed : CompletedRead) (s : State) : Answer :=
  let t := takeCompletion completed.origin .pageRecords s
  match dataUsed completed.origin .pageRecords s, t.job, t.fetcher.fetch with
  | true, some p, some { address := a, header := some h } =>
    .next (takePage p a h (parseRecords completed.data h.count) t)
  | _, _, _ => .next t

/-! ## Failures and the link -/

/-- READ_ERROR_COMPLETION: the first failure of R26, where the part waits for the read. -/
def execReadErrorCompletion (failed : FailedRead) (s : State) : Answer :=
  if readPending failed.origin failed.kind s then .next (accessFailure s) else .next s

/-- READ_TIMEOUT: a read that is outstanding and not dropped has had no completion (R26). -/
def execReadTimeout (kind : ReadKind) (s : State) : Answer :=
  if readPending .awaited kind s || readPending .abandoned kind s then
    .next (accessFailure s)
  else .next s

/-- The part has an access outstanding or waiting (R26). -/
def accessPending (s : State) : Bool :=
  !(s.link.outstanding.isEmpty && s.link.abandoned.isEmpty && s.link.waiting.isEmpty)

/-- The PCIe link leaves its active state (R26). -/
def loseLink (s : State) : State :=
  applyIf (s.link.active && accessPending s) accessFailure
    { s with link := { s.link with active := false } }

/-- PCIE_LINK_INACTIVE. -/
def execPcieLinkInactive (s : State) : Answer := .next (loseLink s)

/-- The link becomes active, and what waits goes out in order (R25, log 5). -/
def gainLink (s : State) : State :=
  s.link.waiting.foldl (fun t i => performItem i t)
    { s with link := { s.link with active := true, waiting := [] } }

/-- PCIE_LINK_ACTIVE. -/
def execPcieLinkActive (s : State) : Answer := .next (gainLink s)

/-- INTERRUPT_ADDRESS_CONFIG: the host configures the interrupt address on the link (R187). -/
def execInterruptAddressConfig (address : BitVec 64) (s : State) : Answer :=
  .next { s with link := { s.link with interruptAddress := some address } }

end Sys2Proof.Machine
end

