-- ==== Sys2Proof/WellFormed.lean ====
section
/-! DEFINITION. What an operand must be for a command to be one that the line, the host or the
link can send. exec answers for ill-formed operands too; each case says how. -/

namespace Sys2Proof

/-- Every part of a pitch event, once, in the order the model takes when no other is asked for:
the fill first, then the owners down the chain, then the purging heads. -/
def PitchPart.all : List PitchPart :=
  [.fill] ++ (List.finRange 12).map .station ++
    [.print, .verify, .gauge, .wrap, .reject, .last, .purge .a, .purge .b]

/-- The bytes of a link word (R28), a page header, a record's request half (formats of 02), the
profile section and the request section. -/
def linkWordLength : Nat := 8
def pageHeaderLength : Nat := 64
def requestHalfLength : Nat := 224
def profileLength : Nat := 256
def requestSectionLength : Nat := 128

/-- The offsets of the registers that have a command of their own: CONTROL, ATTENTION, ANCHOR_LOW
and ANCHOR_HIGH. REGISTER_WRITE is for the others. -/
def ownCommandOffsets : List Word := [0x04, 0x08, 0x10, 0x14]

/-- The checks on operands. The order given to a pitch event names every part once. A serial number
read back has 3 bytes (R103). A completed read holds exactly the bytes asked for; for the records
of a page, the request halves of 1 to 32 slots. -/
def Instr.wellFormed : Instr → Bool
  | .registerWrite offset _ => !ownCommandOffsets.contains offset
  | .pitchEvent _ order => order.isPerm PitchPart.all
  | .read _ _ serial _ _ _ => decide (serial.toNat < 2 ^ 24)
  | .linkReadDone completed => completed.data.length == linkWordLength
  | .headerReadDone completed => completed.data.length == pageHeaderLength
  | .recordsReadDone completed =>
      completed.data.length % requestHalfLength == 0 &&
        decide (1 ≤ completed.data.length / requestHalfLength) &&
        decide (completed.data.length / requestHalfLength ≤ 32)
  | .profileReadDone completed => completed.data.length == profileLength
  | .requestSectionReadDone completed => completed.data.length == requestSectionLength
  | .powerOn | .softReset _ | .enable _ | .attentionClear _ | .anchorWrite _ _ => true
  | .forwardCount | .reverseCount | .tailWindowExpiry | .purgeEnd _ => true
  | .pick _ _ _ _ | .stateMessage _ _ _ _ | .silenceTimeout _ | .stalenessTimeout => true
  | .filmCount _ | .done _ _ _ | .headError _ _ _ | .noread _ _ => true
  | .stackerReadyChange _ | .stackerPulseEnd | .guardChange _ | .driveReadyChange _ => true
  | .drainEnd | .fileEnd | .jobComplete | .bundleClose _ | .pageClose => true
  | .fetchStart | .linkPoll | .readErrorCompletion _ | .readTimeout _ => true
  | .pcieLinkInactive | .pcieLinkActive | .interruptAddressConfig _ => true
  | .scanTimer | .unknownRequest | .loadJob | .start | .pause | .drain | .clearHalt => true
  | .abortJob | .retryPage | .skipPage | .setStation | .clearStation | .setThickness => true
  | .calibrateGauge | .selectHead | .restoreHead | .snapshot | .statusRefresh => true

end Sys2Proof
end

