-- ==== Sys2Proof/Machine/PitchOps.lean ====
section
/-! DEFINITION. The parts of a pitch event: the step of the table (01), the fill at intake (03), and the
arrival at each configured position (04 to 09). -/

namespace Sys2Proof.Machine

/-! ## The table -/

/-- R7, steps 1 and 2: base steps back by one, and the record that stood at the last position is
discarded; its entry now holds position 0. -/
def advanceTable (p : Profile) (s : State) : State :=
  let base := (s.track.base + p.trackLen - 1) % p.trackLen
  let t := { s.track with base := base, raised := s.track.raised - 1 }
  { s with track := t.setPocket base none }

/-- The state, at the moment a pitch event brought the pockets to their positions, of the pocket at
a position (R91, R107, R110, R125). -/
def stateAtPitch (p : Profile) (snap : Track) (position : Nat) : Option PocketState :=
  (snap.pocketAt ((snap.base + position) % p.trackLen)).map (·.state)

/-- The pocket that stands at a position, with its entry. -/
def pocketThere (p : Profile) (position : Nat) (s : State) : Option (Nat × Pocket) :=
  let i := entryIndex p position s
  (s.track.pocketAt i).map fun k => (i, k)

/-! ## The fill at position 0 -/

/-- The record of a pocket just filled (R10): everything optional absent. -/
def freshPocket (serial : Word) (kind : PocketKind) : Pocket :=
  { serial := serial, kind := kind, state := (if kind = .gap then .empty else .live),
    subscriber := none, attempt := none, sort := none, feed := StationSet.empty,
    pend := { stations := StationSet.empty, headAck := false, readBack := false },
    fault := none, printedBy := none, thickness := none, verify := none }

/-- The pocket at position 0 is filled and takes the next serial (R8). -/
def placePocket (p : Profile) (k : Pocket) (s : State) : State :=
  let s := setPocket (entryIndex p 0 s) k s
  { s with track := { s.track with nextSerial := serialAfter s.track.nextSerial } }

/-- A GAP (R47). -/
def feedGap (p : Profile) (s : State) : State :=
  bump .gapsFed (placePocket p (freshPocket s.track.nextSerial .gap) s)

/-- R50: the oldest Remake List entry is fed; the attempts of its context rise by 1 and its flags are
cleared. The new pocket is that of its latest attempt (R8). -/
def feedRemake (p : Profile) (r : Remake) (rest : List Remake) (s : State) : State :=
  let k := { freshPocket s.track.nextSerial .remake with
    subscriber := some { context := r.context, serial := r.serial }, attempt := some r.attempt,
    sort := some r.sort }
  let s := placePocket p k s
  let s := match contextAt r.context s with
    | none => s
    | some c => setContext r.context (some { c with
        attempts := c.attempts + 1, lastPocket := k.serial, bypassed := StationSet.empty, gaugeSkipped := false,
        verifyCorrected := false }) s
  bump .remakesFed { s with remakes := rest }

/-- The context created from a queue entry (R39, R53), with the serial of the pocket it is fed in (R8). -/
def Staged.toContext (r : Staged) (pocketSerial : Word) : Context :=
  { pageSlot := r.pageSlot, recordSlot := r.recordSlot, serial := r.serial, ordinal := r.ordinal,
    selection := r.selection, lines := r.lines, checkValue := r.checkValue, attempts := 1,
    lastPocket := pocketSerial, sort := .inSort, lastFault := none, bypassed := StationSet.empty, gaugeSkipped := false,
    verifyCorrected := false }

/-- The entry an opening record adds at the tail of the Bundle Table (R54). -/
def Staged.toBundle (r : Staged) : Bundle :=
  { ordinal := r.ordinal, size := r.size, trayEnd := r.trayEnd, pageSlot := r.pageSlot,
    recordSlot := r.recordSlot, state := .feeding, fed := 0, delivered := 0, outOfSort := 0,
    failed := 0, withdrawn := r.withdrawn, broken := r.broken }

/-- R54: the bundle opens, and the tail-window counter becomes 0 for it; TABLE_FULL is judged (R63). -/
def openBundle (r : Staged) (s : State) : State :=
  bump .bundlesOpened (refreshHolds
    { s with bundles := s.bundles ++ [r.toBundle], intake := { s.intake with window := some 0 } })

/-- R53: the front record of the Staging Queue is fed, in the order of its steps. The removal of the
record is a change of the queue, at which starvation may begin (R63, R64). The fill is
counted after its steps, as R47 gives. -/
def feedNew (p : Profile) (r : Staged) (rest : List Staged) (i : Nat) (s : State) : State :=
  let s := refreshHolds { s with staging := rest }
  let s := setContext i (some (r.toContext s.track.nextSerial)) s
  let s := applyIf (decide (0 < r.size)) (openBundle r) s
  let s := countAndTest r.ordinal (fun b => { b with fed := b.fed + 1 }) s
  let k := { freshPocket s.track.nextSerial .new with
    subscriber := some { context := i, serial := r.serial }, attempt := some 1,
    sort := some .inSort }
  bump .newFed (fileEndTest (placePocket p k s))

/-- The order of choices of R47. The second value names the bundle of which the pocket just filled is
an in-sort pocket (R56). No free context entry does not occur (R39); a GAP is filled then
(log 26). -/
def fillIntake (p : Profile) (s : State) : State × Option Nat :=
  let h := holdsNow s
  if h.line || h.noHead then (feedGap p s, none)
  else if decide (s.line.state = .draining) && decide (s.line.drain = some .operator) then
    (feedGap p s, none)
  else match s.remakes with
    | r :: rest => (feedRemake p r rest s, if r.sort = .inSort then some r.ordinal else none)
    | [] =>
      match s.staging, freeContextEntry s with
      | r :: rest, some i =>
        if h.drain || h.tableFull || h.bundleTail then (feedGap p s, none)
        else (feedNew p r rest i s, some r.ordinal)
      | _, _ => (applyIf h.starved (bump .starvedGaps) (feedGap p s), none)

/-- R56: after the fill, the counter becomes 0 for an in-sort pocket of the bundle in its window, or
rises by 1 up to 255. -/
def updateWindow (inSort : Option Nat) (s : State) : State :=
  match s.intake.window, windowBundle s with
  | some n, some b =>
    let n := if inSort = some b.ordinal then 0 else min 255 (n + 1)
    { s with intake := { s.intake with window := some n } }
  | _, _ => s

/-- The fill with its counter update and the expiry test (R47, R56, R59). -/
def takeFill (p : Profile) (s : State) : State :=
  let (s, inSort) := fillIntake p s
  expiryTest p (updateWindow inSort s)

/-! ## Feeder stations -/

/-- The pocket is LIVE and its subscriber selected the station (R71). -/
def wants (n : Fin 12) (k : Pocket) (s : State) : Bool :=
  decide (k.state = .live) && (pocketContext k s).any fun c => StationSet.holds c.2.selection n

/-- A station joins the pending set of a pocket. -/
def Pocket.awaitStation (n : Fin 12) (k : Pocket) : Pocket :=
  { k with pend := { k.pend with stations := StationSet.add k.pend.stations n } }

/-- The arrival at a fitted station's position, by the state of the station (R71, R72, R73). -/
def stationArrival (p : Profile) (n : Fin 12) (s : State) : State :=
  let e := s.stations.get n
  if !e.fitted then s
  else match pocketThere p e.position s with
    | none => s
    | some (i, k) =>
      match e.state with
      | .online =>
        if wants n k s then
          send (.call n (tagOf k.serial) true)
            (setPocket i { k.awaitStation n with feed := StationSet.add k.feed n } s)
        else send (.call n (tagOf k.serial) false) s
      | .bypassed =>
        if wants n k s then
          updatePocketContext k (fun c => { c with bypassed := StationSet.add c.bypassed n }) s
        else s
      | .faulted => if wants n k s then setPocket i (k.awaitStation n) s else s
      | .offline => s

/-! ## PRINT and VERIFY -/

def activeHead (s : State) : Option Head :=
  if s.print.headA.state = .active then some .a
  else if s.print.headB.state = .active then some .b
  else none

/-- The arrival at PRINT (R107, R108). -/
def printArrival (p : Profile) (snap : Track) (s : State) : State :=
  if stateAtPitch p snap p.printPos = some .live then
    match pocketThere p p.printPos s with
    | none => s
    | some (i, k) =>
      match pocketContext k s, activeHead s with
      | none, _ => s
      | some (_, c), some h =>
        let k := { k with pend := { k.pend with headAck := true, readBack := true },
                          printedBy := some h }
        let s := { s with print := { s.print with readBacks := s.print.readBacks ++
          [{ pocket := k.serial, head := h, serial := c.serial, checkValue := c.checkValue }] } }
        bump .prints
          (send (.print h (tagOf k.serial) c.lines p.jobTag c.serial c.checkValue) (setPocket i k s))
      | some _, none => handFault i .noPrint none false (bump .noPrints s)
  else s

/-- READ_BACK leaves the pending set of a pocket, and its entry the read-back list (R108). -/
def dropReadBack (i : Nat) (k : Pocket) (s : State) : State :=
  setPocket i { k with pend := { k.pend with readBack := false } }
    { s with print := { s.print with
        readBacks := s.print.readBacks.filter fun r => r.pocket ≠ k.serial } }

/-- The arrival at VERIFY: the reader is triggered (R111), or READ_BACK is withdrawn from a pocket
that was FAULTED (R110). -/
def verifyArrival (p : Profile) (snap : Track) (s : State) : State :=
  match pocketThere p p.verifyPos s with
  | none => s
  | some (i, k) =>
    if k.pend.readBack then
      match stateAtPitch p snap p.verifyPos with
      | some .live => send (.trigger (tagOf k.serial)) s
      | some .faulted => dropReadBack i k s
      | _ => s
    else s

/-! ## GAUGE -/

/-- The zero follows a GAP reading (R97). -/
def trackZero (reading : Nat) (s : State) : State :=
  setGauge { s.gauge with z16 := zeroAfter s.gauge.z16 reading } (bump .zeroUpdates s)

/-- The drift check (R98). -/
def driftCheck (p : Profile) (s : State) : State :=
  if decide (0 < p.driftLim) && decide (16 * p.driftLim < distance s.gauge.z16 s.gauge.zRef) then
    bump .gaugeDrifts (raise .gaugeDrift (setGauge { s.gauge with state := .suspended } s))
  else s

/-- The calibration reading (R100). -/
def calibrationReading (reading : Nat) (s : State) : State :=
  setGauge { state := .active, z16 := 16 * reading, zRef := 16 * reading } (bump .zeroUpdates s)

/-- R93: the sum of T over the pocket's feed set, with the values now in the Station Table. -/
def expectedThickness (k : Pocket) (s : State) : Nat :=
  ((StationSet.toList k.feed).map fun n => (s.stations.get n).thickness).sum

/-- Classification of a judged pocket (R92 to R95). -/
def classify (p : Profile) (reading : Nat) (i : Nat) (k : Pocket) (s : State) : State :=
  let t := thicknessOf reading s.gauge.z16 p.scale
  let e := expectedThickness k s
  let s := setPocket i { k with thickness := some t } s
  match verdictOf t e (toleranceOf p e) with
  | .good => bump .gaugeGood s
  | .short => handFault i .short none false (bump .gaugeShort s)
  | .over => handFault i .over none false (bump .gaugeOver s)

/-- A judged pocket that is not classified (R96). Where the parts of one pitch event fault this pocket and
feed its remake before the gauge acts, the flag stays as the feed cleared it: R96 wants it of the attempt
that ends the subscriber's story, and that is the remake by then (DEDUCED, log 37). -/
def skipGauge (k : Pocket) (s : State) : State :=
  updateLatestContext k (fun c => { c with gaugeSkipped := true }) (bump .gaugeSkips s)

/-- The arrival at GAUGE (R90). -/
def gaugeArrival (p : Profile) (snap : Track) (reading : Nat) (s : State) : State :=
  match pocketThere p p.gaugePos s with
  | none => s
  | some (i, k) =>
    if k.kind = .gap then
      match s.gauge.state with
      | .active => driftCheck p (trackZero reading s)
      | .suspended => trackZero reading s
      | .calibrating => calibrationReading reading s
      | .off => s
    else if stateAtPitch p snap p.gaugePos = some .live then
      if s.gauge.state = .active then classify p reading i k s else skipGauge k s
    else s

/-! ## Film and SEAL -/

/-- The verdicts on the pocket at SEAL: the film first (R125), then the seal state (R130). -/
def sealArrival (p : Profile) (snap : Track) (inWindow : Bool) (s : State) : State :=
  if stateAtPitch p snap p.sealPos = some .live then
    let i := entryIndex p p.sealPos s
    let s := applyIf (!inWindow)
      (fun s => handFault i .wrap none false (bump .wrapFaults s)) s
    applyIf (!s.wrap.sealOk)
      (fun s => handFault i .sealFault none false (bump .sealFaults s)) s
  else s

/-- The run of out-of-window verdicts and the FILM stop cause (R126). -/
def moveFilmRun (p : Profile) (inWindow : Bool) (s : State) : State :=
  if inWindow then { s with wrap := { s.wrap with run := 0 } }
  else
    let run := min 15 (s.wrap.run + 1)
    applyIf (decide (p.filmFaultLimit ≤ run))
      (fun s => raiseStop .film (bump .filmStops s)) { s with wrap := { s.wrap with run := run } }

/-- The film judgement and the arrival at SEAL, one event (R124 to R126). R126 does not say whether the
FILM stop is raised before or after the faults that the same verdict gives. The model hands the faults
first, so that in an END drain a WRAP failure that closes the last page reaches COMPLETE, where FILM
then changes nothing (DESIGN CHOICE, log 36). The run belongs to the film verdict, so that a SEAL fault that is
a later fault finds the part of its own verdict done (R140, log 36). -/
def wrapPart (p : Profile) (snap : Track) (s : State) : State :=
  let inWindow := filmInWindow p s.wrap.film
  let s := { s with wrap := { s.wrap with film := 0, runaway := false } }
  let s := applyIf (!inWindow) (bump .filmOut) s
  moveFilmRun p inWindow (sealArrival p snap inWindow s)

/-! ## REJECT and the last position -/

/-- The items still pending, in the order of R143. -/
def pendingFaults (k : Pocket) : List (FaultCause × Option (Fin 12)) :=
  (StationSet.toList k.pend.stations).map (fun n => (.noReport, some n)) ++
    (if k.pend.headAck then [(.noPrintAck, none)] else []) ++
    (if k.pend.readBack then [(.noVerify, none)] else [])

/-- Each item still pending becomes a fault, and the pending set is emptied (R143). -/
def gateFaults (i : Nat) (k : Pocket) (s : State) : State :=
  let s := (pendingFaults k).foldl
    (fun t f => handFault i f.1 f.2 false (bump .gateFaults t)) s
  match s.track.pocketAt i with
  | none => s
  | some k =>
    let s := applyIf k.pend.readBack (dropReadBack i k) s
    setPocket i { k with pend :=
      { stations := StationSet.empty, headAck := false, readBack := false } } s

/-- The gate is set by the pocket's state (R144). -/
def setGate (i : Nat) (s : State) : State :=
  match s.track.pocketAt i with
  | none => s
  | some k =>
    match k.state with
    | .faulted => bump .diverts { setPocket i { k with state := .diverted } s with gate := .divert }
    | .live => bump .passes { s with gate := .pass }
    | .empty => { s with gate := .pass }
    | _ => s

/-- The arrival at REJECT (R142). -/
def rejectArrival (p : Profile) (s : State) : State :=
  match pocketThere p p.rejectPos s with
  | none => s
  | some (i, k) => setGate i (gateFaults i k s)

/-- A delivery at the last position, in the order of R163. -/
def deliver (i : Nat) (k : Pocket) (j : Nat) (c : Context) (s : State) : State :=
  match c.sort with
  | .inSort =>
    let s := setPocket i { k with state := .delivered } (issueCommand .stack s)
    let s := updateBundle c.ordinal (fun b => { b with delivered := b.delivered + 1 }) s
    let s := writeOutcome c.pageSlot c.recordSlot (c.outcomeFields k.serial) .mailed s
    resolutionTest c.ordinal k.serial (freeContext j s)
  | .oos =>
    let s := setPocket i { k with state := .delivered } (issueCommand .oosExit s)
    let s := writeOutcome c.pageSlot c.recordSlot (c.outcomeFields k.serial) .mailedOos s
    freeContext j s

/-- The arrival at the last position (R163). A LIVE pocket there has its context (R163). -/
def lastArrival (p : Profile) (s : State) : State :=
  match pocketThere p (p.trackLen - 1) s with
  | none => s
  | some (i, k) =>
    if k.state = .live then
      match pocketContext k s with
      | none => s
      | some (j, c) => deliver i k j c s
    else s

/-! ## Purging heads -/

/-- One SPIT to a PURGING head; at 0 the purge ends (R115). Two heads are two parts of the event, so that
the order asked for decides which becomes ACTIVE where both purges end with no head ACTIVE (log 4). -/
def spitHead (h : Head) (s : State) : State :=
  let e := s.headEntry h
  if e.state = .purging then
    let s := send (.spit h) (setHead h { e with countdown := e.countdown - 1 } s)
    if e.countdown ≤ 1 then endPurge h s else s
  else s

/-! ## The whole event -/

/-- One part of the pitch event. `snap` is the track as the pitch event brought it. -/
def takePart (p : Profile) (snap : Track) (reading : Nat) (s : State) : PitchPart → State
  | .fill => takeFill p s
  | .station n => stationArrival p n s
  | .print => printArrival p snap s
  | .verify => verifyArrival p snap s
  | .gauge => gaugeArrival p snap reading s
  | .wrap => wrapPart p snap s
  | .reject => rejectArrival p s
  | .last => lastArrival p s
  | .purge h => spitHead h s

/-- The first of each part that a list names. -/
def firstOfEach : List PitchPart → List PitchPart
  | [] => []
  | x :: xs => x :: (firstOfEach xs).filter fun y => y ≠ x

/-- The order in which the parts are taken: as asked, each once, and those not named after them
(log 4). -/
def partOrder (order : List PitchPart) : List PitchPart :=
  firstOfEach (order ++ PitchPart.all)

/-- A pitch event that the Track has raised is taken (R7, R15 to R18). R2 does not say whether PITCHES rises
before or after the parts of the event, which shows in the job totals written at a line change inside it,
such as a FILM pause: the model counts first (DESIGN CHOICE, log 44). -/
def takePitch (p : Profile) (reading : BitVec 12) (order : List PitchPart) (s : State) : State :=
  let s := bump .pitches (advanceTable p s)
  let snap := s.track
  settle (drainEndTest ((partOrder order).foldl (takePart p snap reading.toNat) s))

end Sys2Proof.Machine
end

