-- ==== Sys2Proof/Machine/LineEvents.lean ====
section
/-! DEFINITION. The meanings of the changes of the input lines, of the end of a stacker pulse, and of the
events that the line, the bundles and the pages bring about (09, 10, 02). -/

namespace Sys2Proof.Machine

/-! ## Input lines -/

/-- The stacker-ready line takes a level; its change to not ready, with a job loaded, counts and
raises STACKER (R165). -/
def setStackerReady (ready : Bool) (s : State) : State :=
  let falls := s.inputs.stackerReady && !ready && s.job.isSome
  applyIf falls (fun s => raiseStop .stacker (bump .stackerStops s))
    { s with inputs := { s.inputs with stackerReady := ready } }

/-- STACKER_READY_CHANGE. -/
def execStackerReadyChange (ready : Bool) (s : State) : Answer := .next (setStackerReady ready s)

/-- The guard input takes a level; its change to open, with a job loaded, raises GUARD (R177). -/
def setGuard (closed : Bool) (s : State) : State :=
  let opens := s.inputs.guardClosed && !closed && s.job.isSome
  applyIf opens (raiseHalt .guardOpen) { s with inputs := { s.inputs with guardClosed := closed } }

/-- GUARD_CHANGE. -/
def execGuardChange (closed : Bool) (s : State) : Answer := .next (setGuard closed s)

/-- The drive-ready input takes a level; its loss while run enable is on raises DRIVE (R177). -/
def setDriveReady (asserted : Bool) (s : State) : State :=
  let falls := s.inputs.driveReady && !asserted && s.line.runEnable
  applyIf falls (raiseHalt .drive) { s with inputs := { s.inputs with driveReady := asserted } }

/-- DRIVE_READY_CHANGE. -/
def execDriveReadyChange (asserted : Bool) (s : State) : Answer := .next (setDriveReady asserted s)

/-! ## Stacker pulses -/

/-- The pulse in progress ends, and the pulse of the oldest command held begins (R164). -/
def endPulse (s : State) : State :=
  match s.stacker.pulse with
  | none => s
  | some _ =>
    match s.stacker.held with
    | [] => { s with stacker := { pulse := none, held := [] } }
    | c :: rest => send (.pulse c) { s with stacker := { pulse := some c, held := rest } }

/-- STACKER_PULSE_END. -/
def execStackerPulseEnd (s : State) : Answer := .next (endPulse s)

/-! ## Events that their conditions bring about (log 2) -/

/-- DRAIN_END, where the operator drain has ended (R174). -/
def execDrainEnd (s : State) : Answer := .next (drainEndTest s)

/-- FILE_END, where it is due and has not been reported (R36, R175). -/
def execFileEnd (s : State) : Answer :=
  if fileEndDue s then .next (settle (fileEndTest s)) else .next s

/-- JOB_COMPLETE, where the job is complete (R175). -/
def execJobComplete (s : State) : Answer :=
  if completionDue s then .next (settle (completionTest s)) else .next s

/-- The front bundle, where it is resolved (R160). -/
def resolvedFront (s : State) : Option Bundle :=
  s.bundles.head?.filter fun b => decide (b.resolved = b.size)

/-- BUNDLE_CLOSE: a resolved front bundle closes, with this close pocket serial (R160 to R162); one in its
window leaves it first (R159). -/
def execBundleClose (closeSerial : Word) (s : State) : Answer :=
  match resolvedFront s with
  | none => .next s
  | some b => .next (settle (closeFront closeSerial (applyIf b.inWindow (endWindow b.ordinal) s)))

/-- The first page in the list that meets the three conditions of R45, while pages are written. -/
def settledPage (s : State) : Option OpenPage :=
  if accessStopped s then none else s.fetcher.pages.find? OpenPage.settled

/-- PAGE_CLOSE: a page that meets the conditions of R45 is closed. -/
def execPageClose (s : State) : Answer :=
  match settledPage s with
  | none => .next s
  | some p => .next (settle (closePage p s))

end Sys2Proof.Machine
end

