-- ==== Sys2Proof/Machine/LineRequests.lean ====
section
/-! DEFINITION. The meanings of the requests that the Line Controller and the Page Fetcher own (10, 02),
but for LOAD_JOB. Each acts only when it is the request in progress (log 21). -/

namespace Sys2Proof.Machine

/-! ## START -/

/-- The weight of a condition that fails (R172). -/
def weight (w : Nat) (holds : Bool) : Nat := if holds then 0 else w

/-- The weights of guard, drive-ready and stacker-ready (R172, R174). -/
def inputWeights (s : State) : Nat :=
  weight 1 s.inputs.guardClosed + weight 2 s.inputs.driveReady + weight 4 s.inputs.stackerReady

/-- A head can print or stands by. -/
def HeadEntry.usable (e : HeadEntry) : Bool :=
  decide (e.state = .active) || decide (e.state = .standby)

/-- The sum of the weights of the failing conditions of START (R172). -/
def startWeights (s : State) : Nat :=
  inputWeights s + weight 8 s.wrap.sealOk +
  weight 16 (decide ((s.stations.get mainStation).state = .online)) +
  weight 32 (decide ((s.stations.get carrierStation).state = .online)) +
  weight 64 (s.print.headA.usable || s.print.headB.usable)

/-- With no head ACTIVE, head A becomes ACTIVE if it is STANDBY, else head B, and NO_HEAD leaves the
hold-cause set (R106). -/
def chooseHead (s : State) : State :=
  if headActive s then s
  else if s.print.headA.state = .standby then
    refreshHolds (setHead .a { s.print.headA with state := .active } s)
  else if s.print.headB.state = .standby then
    refreshHolds (setHead .b { s.print.headB with state := .active } s)
  else s

/-- The line record after START (R172). -/
def startedLine (l : Line) : Line :=
  if l.fileExhausted then
    { l with state := .draining, drain := some .endOfFile, stop := .none, halt := .none,
             runEnable := true }
  else { l with state := .running, drain := none, stop := .none, halt := .none, runEnable := true }

/-- The line runs, and an END drain is tested for completion at once (R172, R175). R172 gives the writes of
the line, of the hold byte and of the head chosen no order: the model makes the line change with its hold
byte, STARVED and LINE_STATE first, then chooses the head and writes the hold byte again (DESIGN CHOICE,
log 49). -/
def startLine (s : State) : State :=
  completionTest (chooseHead (changeLine (startedLine s.line) (bump .starts s)))

/-- START (R172). -/
def serveStart (s : State) : State :=
  if s.line.state = .ready ∨ s.line.state = .paused then
    if startWeights s = 0 then
      let t := startLine s
      finishCode .doneOk t.line.state.code t
    else finishCode .badState (startWeights s) s
  else finishCode .badState 0 s

/-- START. -/
def execStart (s : State) : Answer :=
  match handedRequest 2 s with
  | none => .next s
  | some _ => .next (serveStart s)

/-! ## PAUSE, DRAIN, CLEAR_HALT -/

/-- PAUSE (R173). -/
def servePause (s : State) : State :=
  match s.line.state with
  | .running | .draining => finishCode .doneOk 0 (enterPaused .request s)
  | .paused => finishCode .doneOk 0 s
  | .idle | .ready | .halted | .complete => finishCode .badState s.line.state.code s

/-- PAUSE. -/
def execPause (s : State) : Answer :=
  match handedRequest 3 s with
  | none => .next s
  | some _ => .next (servePause s)

/-- DRAIN (R174). -/
def serveDrain (s : State) : State :=
  match s.line.state with
  | .running => finishCode .doneOk 0 (enterOperatorDrain .drain s.line.halt s)
  | .paused =>
    if inputWeights s = 0 then finishCode .doneOk 0 (enterOperatorDrain .drain .none s)
    else finishCode .badState (inputWeights s) s
  | .draining =>
    if s.line.drain = some .operator then finishCode .doneOk 0 s
    else finishCode .badState s.line.state.code s
  | .idle | .ready | .halted | .complete => finishCode .badState s.line.state.code s

/-- DRAIN. -/
def execDrain (s : State) : Answer :=
  match handedRequest 4 s with
  | none => .next s
  | some _ => .next (serveDrain s)

/-- The line is halted by LINK, which only a reset leaves (R179, log 20). -/
def linkHalted (s : State) : Bool :=
  decide (s.line.state = .halted) && decide (s.line.halt = .link)

/-- CLEAR_HALT (R178). It cannot be taken in a LINK halt (R179). -/
def serveClearHalt (s : State) : State :=
  if linkHalted s then finishFree .badState s
  else if s.line.state = .halted then
    if s.inputs.guardClosed then
      finishCode .doneOk 0
        (changeLine { s.line with state := .paused, quickStop := false, stop := .none } s)
    else finishCode .badState 1 s
  else finishCode .badState 0 s

/-- CLEAR_HALT. -/
def execClearHalt (s : State) : Answer :=
  match handedRequest 5 s with
  | none => .next s
  | some _ => .next (serveClearHalt s)

/-! ## ABORT_JOB -/

/-- The reads of the Page Fetcher. -/
def fetcherRead : ReadKind → Bool
  | .linkWord | .pageHeader | .pageRecords => true
  | .profile | .requestSection => false

/-- Any fetch ends at once (R30, R46), and the data of its reads is used no more (log 6). R30 does not say
whether a read of the fetch that still waits for the link is withdrawn: the model leaves it among what
waits, so that it is sent when the link becomes active (DESIGN CHOICE, log 40). -/
def endFetch (s : State) : State :=
  { s with
    fetcher := { s.fetcher with fetch := none }
    link := { s.link with
      abandoned := s.link.abandoned ++ s.link.outstanding.filter fetcherRead,
      outstanding := s.link.outstanding.filter fun k => !fetcherRead k } }

/-- NOT_PRODUCED for a record that is still staged (R46, step 1). -/
def abortStaged (s : State) (r : Staged) : State :=
  putOutcome r.pageSlot r.recordSlot .neverFed .notProduced s

/-- NOT_PRODUCED for a record that has a context (R46, step 2). Its final attempt is the latest it was
given, so the final pocket serial is that of the pocket of that attempt (R8). -/
def abortContext (s : State) (c : Context) : State :=
  putOutcome c.pageSlot c.recordSlot (c.outcomeFields c.lastPocket) .notProduced s

/-- The context of a record of a page. -/
def contextOn (page record : Nat) (s : State) : Option Context :=
  (List.range 128).findSome? fun j =>
    (contextAt j s).filter fun c => c.pageSlot == page && c.recordSlot == record

/-- The records of the open pages that are fed and not final. Once the staged records are written, these are
the records whose outcome is PENDING (R39). R46 gives the writes of its step 2 no order among them: the model
goes page by page in the order of the Open Page List, and slot by slot (DESIGN CHOICE, log 52). -/
def pendingContexts (s : State) : List Context :=
  s.fetcher.pages.flatMap fun p => (List.range p.count).filterMap fun k => contextOn p.slot k s

/-- The number of records an abort writes NOT_PRODUCED (R180). -/
def abortCount (s : State) : Nat :=
  if accessStopped s then 0 else s.staging.length + (pendingContexts s).length

/-- R46, steps 1 and 2. While access is stopped no record is written (R46, log 19). The staged records of step
1 are written in the order of the queue, which R46 does not name (DESIGN CHOICE, log 52). -/
def abortRecords (s : State) : State :=
  if accessStopped s then s
  else (pendingContexts s).foldl abortContext (s.staging.foldl abortStaged s)

/-- One bundle closes ABORTED, with close pocket serial 0 (R166). -/
def abortBundle (s : State) (b : Bundle) : State :=
  removeBundle b .aborted (putReport b .aborted 0 s)

/-- R46, step 3, and R166, in opening order. -/
def abortBundles (s : State) : State := s.bundles.foldl abortBundle s

/-- R46, step 4. -/
def abortPages (s : State) : State :=
  if accessStopped s then s
  else releaseSkipped (s.fetcher.pages.foldl (fun t p => closePage p t) s)

/-- The collections are emptied (R46), with what the track and the heads held of them (R21, R104). -/
def emptyCollections (s : State) : State :=
  refreshHolds { s with
    fetcher := { s.fetcher with pages := [], skipped := none, held := none }
    staging := [], contexts := Vector.replicate 128 none, bundles := [], remakes := [],
    gate := .pass, track := .reset, intake := { s.intake with window := none },
    print := { s.print with readBacks := [], window := [] } }

/-- A station at the return to IDLE (R70). -/
def idleStation (s : State) (n : Fin 12) : State :=
  setStation n { s.stations.get n with state := .offline, misses := 0, doubles := 0, cause := none } s

/-- The Wrap Monitor at the return to IDLE (R131); the seal state is written (R133). -/
def idleWrap (s : State) : State :=
  statusWrite 0x206 (leBytes 1 (sealCode false)) { s with wrap := .reset }

/-- Every block takes its IDLE values (R180, step 3). LINK_DOWN is left only by a reset (R26). The order of the
blocks among each other is the model's (DESIGN CHOICE, log 49). -/
def idleBlocks (s : State) : State :=
  let s := applyIf (!accessStopped s) (setFetch .off) (emptyCollections s)
  let s := (List.finRange 12).foldl idleStation s
  let s := refreshHolds (setHead .b .reset (setHead .a .reset s))
  idleWrap (setGauge { s.gauge with state := .off } s)

/-- The abort, in the order of R180. -/
def abortJob (s : State) : State :=
  let s := abortPages (abortBundles (abortRecords (endFetch s)))
  changeLine .reset { idleBlocks s with profile := none }

/-- ABORT_JOB (R180). It cannot be taken in a LINK halt (R179). -/
def serveAbort (s : State) : State :=
  if linkHalted s then finishCode .badState s.line.state.code s
  else match s.line.state with
    | .ready | .paused | .halted | .complete => finishCode .doneOk (abortCount s) (abortJob s)
    | .idle | .running | .draining => finishCode .badState s.line.state.code s

/-- ABORT_JOB. -/
def execAbortJob (s : State) : Answer :=
  match handedRequest 6 s with
  | none => .next s
  | some _ => .next (serveAbort s)

/-! ## RETRY_PAGE and SKIP_PAGE -/

/-- A request to the Page Fetcher waits for the end of a fetch, and is otherwise judged at once (R30).
With no job loaded the fetch state is OFF or LINK_DOWN, and it is BAD_STATE (R40, R41). -/
def serveFetcher (serve : Profile → State → State) (s : State) : State :=
  match s.job with
  | none => finishFree .badState s
  | some p => if s.fetcher.state = .fetching then setPhase .awaitingFetch s else serve p s

/-- RETRY_PAGE (R40). -/
def execRetryPage (s : State) : Answer :=
  match handedRequest 7 s with
  | none => .next s
  | some _ => .next (serveFetcher serveRetry s)

/-- SKIP_PAGE (R41). -/
def execSkipPage (s : State) : Answer :=
  match handedRequest 8 s with
  | none => .next s
  | some _ => .next (serveFetcher serveSkip s)

end Sys2Proof.Machine
end

