-- ==== Sys2Proof/Machine/LoopEvents.lean ====
section
/-! DEFINITION. The meanings of the station loop's messages and timers, and of film and seal (04, 07). -/

namespace Sys2Proof.Machine

/-! ## PICK -/

/-- The consecutive counts of a station after a matched PICK (R74). -/
def Station.afterPick (e : Station) : PickResult → Station
  | .good => { e with misses := 0, doubles := 0 }
  | .miss => { e with misses := min 15 (e.misses + 1), doubles := 0 }
  | .double => { e with misses := 0, doubles := min 15 (e.doubles + 1) }

def pickCounter : PickResult → StationCounter
  | .good => .picks
  | .miss => .misses
  | .double => .doubles

/-- The fault a PICK hands over (R74). -/
def pickFault : PickResult → Option FaultCause
  | .good => none
  | .miss => some .miss
  | .double => some .double

/-- The limit an ONLINE station has reached with this report (R77). -/
def limitReached (e : Station) : PickResult → Option StationCause
  | .good => none
  | .miss => if e.missLimit ≤ e.misses then some .missLimit else none
  | .double => if e.doubleLimit ≤ e.doubles then some .doubleLimit else none

/-- The station fault of a limit, taken after the report's effect on its pocket (R78). -/
def limitTest (n : Fin 12) (result : PickResult) (s : State) : State :=
  let e := s.stations.get n
  match e.state, limitReached e result with
  | .online, some cause => stationFault n cause s
  | _, _ => s

/-- A matched PICK (R74). -/
def takeMatchedPick (n : Fin 12) (i : Nat) (k : Pocket) (result : PickResult) (s : State) : State :=
  let k := { k with pend := { k.pend with stations := StationSet.remove k.pend.stations n } }
  let s := bumpStation n (pickCounter result) (setPocket i k s)
  let s := setStation n ((s.stations.get n).afterPick result) s
  match pickFault result with
  | none => s
  | some cause => settle (limitTest n result (handFault i cause (some n) false s))

/-- The pocket of this tag that awaits the PICK of a call of the station (R74): its pending set holds the
station, and so does its feed set. An item that a FAULTED station left pending had no call, and no PICK
answers it (R73, R76). -/
def matchPick (n : Fin 12) (tag : Tag) (s : State) : Option (Nat × Pocket) :=
  match findTag tag s with
  | none => none
  | some i =>
    match s.track.pocketAt i with
    | none => none
    | some k =>
      if StationSet.holds k.pend.stations n && StationSet.holds k.feed n then some (i, k) else none

/-- A PICK taken while a job is loaded restarts its station's silence timer (R69), and is matched or
STRAY (R74). -/
def takePick (n : Fin 12) (tag : Tag) (result : PickResult) (s : State) : State :=
  let s := setStation n { s.stations.get n with timer := true } s
  match matchPick n tag s with
  | none => bumpStation n .strays s
  | some (i, k) => takeMatchedPick n i k result s

/-- PICK. A message whose check fails, whose address is above 11, or that is taken with no job
loaded, is discarded (R68). -/
def execPick (address : Byte) (tag : Tag) (result : PickResult) (checkOk : Bool) (s : State) :
    Answer :=
  if h : address.toNat < 12 then
    if checkOk && s.job.isSome then .next (takePick ⟨address.toNat, h⟩ tag result s) else .next s
  else .next s

/-! ## STATE, silence and the seal -/

/-- A temperature handed over (R128, R129). -/
def takeTemperature (t : Nat) (s : State) : State :=
  match s.job with
  | none => s
  | some p =>
    let ok := sealAfter p s.wrap.sealOk t
    let was := s.wrap.sealOk
    applyIf (was && !ok) (bump .sealOut)
      (setSeal ok { s with wrap := { s.wrap with timer := true } })

/-- A STATE from a feeder station (R69, R77). -/
def takeStationState (n : Fin 12) (condition : Condition) (s : State) : State :=
  let e := s.stations.get n
  let s := setStation n { e with timer := true, lastState := some condition } s
  if e.state = .online ∧ condition = .jam then stationFault n .jam s else s

/-- A STATE from the sealer unit (R69). -/
def takeSealerState (condition : Condition) (t : Nat) (s : State) : State :=
  let s := { s with sealerTimer := true }
  if condition = .ready then takeTemperature t s else s

/-- STATE. A message whose check fails or whose address is above 12 is discarded (R68). It is taken
whether or not a job is loaded (R69). -/
def execStateMessage (address : Byte) (condition : Condition) (temperature : BitVec 16)
    (checkOk : Bool) (s : State) : Answer :=
  if !checkOk then .next s
  else if h : address.toNat < 12 then .next (takeStationState ⟨address.toNat, h⟩ condition s)
  else if address.toNat = 12 then .next (takeSealerState condition temperature.toNat s)
  else .next s

/-- The silence of a station (R69): its last STATE becomes absent, and an ONLINE station is LOST. -/
def stationSilent (n : Fin 12) (s : State) : State :=
  let e := s.stations.get n
  let s := setStation n { e with timer := false, lastState := none } s
  if e.state = .online ∧ e.fitted = true ∧ s.job.isSome = true then stationFault n .lost s else s

/-- SILENCE_TIMEOUT: the expiry of a running timer (R69). -/
def execSilenceTimeout (address : Fin 13) (s : State) : Answer :=
  if h : address.val < 12 then
    if (s.stations.get ⟨address.val, h⟩).timer then .next (stationSilent ⟨address.val, h⟩ s)
    else .next s
  else .next { s with sealerTimer := false }

/-- STALENESS_TIMEOUT: the expiry of a running timer (R129). -/
def execStalenessTimeout (s : State) : Answer :=
  if s.wrap.timer then
    .next (applyIf s.wrap.sealOk (bump .sealOut)
      (setSeal false { s with wrap := { s.wrap with timer := false } }))
  else .next s

/-! ## Film -/

/-- F stands more than 4 times F_NOM from 0, in RUNNING or DRAINING, with the mark clear (R127). -/
def runsAway (p : Profile) (s : State) : Bool :=
  (decide (s.line.state = .running) || decide (s.line.state = .draining)) && !s.wrap.runaway &&
  decide (4 * p.fNom < s.wrap.film.natAbs)

/-- A film count while a job is loaded (R123), and the runaway test after it (R127). -/
def filmStep (p : Profile) (forward : Bool) (s : State) : State :=
  let s := { s with wrap := { s.wrap with film := filmAfter s.wrap.film forward } }
  if runsAway p s then
    raiseHalt .runaway (bump .runaways { s with wrap := { s.wrap with runaway := true } })
  else s

/-- FILM_COUNT. In IDLE each count is discarded (R123). -/
def execFilmCount (forward : Bool) (s : State) : Answer :=
  match s.job with
  | none => .next s
  | some p => .next (filmStep p forward s)

end Sys2Proof.Machine
end

