-- ==== Sys2Proof/Machine/PrintEvents.lean ====
section
/-! DEFINITION. The meanings of the replies of the heads and of the reader (06). -/

namespace Sys2Proof.Machine

/-- The pocket that a head reply matches (R109): its pending set holds HEAD_ACK and the head printed
it. -/
def matchHeadReply (h : Head) (tag : Tag) (s : State) : Option (Nat × Pocket) :=
  match findTag tag s with
  | none => none
  | some i =>
    match s.track.pocketAt i with
    | none => none
    | some k => if k.pend.headAck && decide (k.printedBy = some h) then some (i, k) else none

/-- HEAD_ACK leaves the pending set. -/
def dropHeadAck (i : Nat) (k : Pocket) (s : State) : State :=
  setPocket i { k with pend := { k.pend with headAck := false } } s

/-- A head message is taken: its check holds, a job is loaded and the head is not OFF (R105). -/
def headHeard (h : Head) (checkOk : Bool) (s : State) : Bool :=
  checkOk && s.job.isSome && decide ((s.headEntry h).state ≠ .off)

/-- A DONE that is taken (R109). -/
def takeDone (h : Head) (tag : Tag) (s : State) : State :=
  match matchHeadReply h tag s with
  | none => bump .headStrays s
  | some (i, k) => dropHeadAck i k s

/-- DONE. -/
def execDone (head : Head) (tag : Tag) (checkOk : Bool) (s : State) : Answer :=
  if headHeard head checkOk s then .next (takeDone head tag s) else .next s

/-- A HEAD_ERROR that is taken (R110). -/
def takeHeadError (p : Profile) (h : Head) (tag : Tag) (s : State) : State :=
  match matchHeadReply h tag s with
  | none => bump .headStrays s
  | some (i, k) =>
    let s := bump .headErrors (dropHeadAck i k s)
    let s := handFault i .printError none false s
    settle (applyIf (decide ((s.headEntry h).state = .active)) (swapHead p h) s)

/-- HEAD_ERROR. -/
def execHeadError (head : Head) (tag : Tag) (checkOk : Bool) (s : State) : Answer :=
  match s.job with
  | none => .next s
  | some p => if headHeard head checkOk s then .next (takeHeadError p head tag s) else .next s

/-! ## The reader -/

/-- The pocket and the list entry that a reader reply matches (R111). -/
def matchReply (tag : Tag) (s : State) : Option (Nat × Pocket × ReadBack) :=
  match findTag tag s with
  | none => none
  | some i =>
    match s.track.pocketAt i with
    | none => none
    | some k =>
      if k.pend.readBack then
        (s.print.readBacks.find? fun r => decide (r.pocket = k.serial)).map fun r => (i, k, r)
      else none

/-- The judgement of a READ (R112). -/
def judgeRead (p : Profile) (r : ReadBack) (jobTag serial check : Nat) (corrected : Bool) :
    VerifyResult :=
  if jobTag ≠ p.jobTag ∨ serial ≠ r.serial then .mismatch
  else if check ≠ r.checkValue then .printData
  else if corrected then .corrected
  else .matched

/-- The fault that a result gives its pocket (R112). -/
def verifyFault : VerifyResult → Option FaultCause
  | .matched => none
  | .corrected => none
  | .noread => some .noread
  | .printData => some .printData
  | .mismatch => some .mismatch

def verifyCounter : VerifyResult → LineCounter
  | .matched => .readMatch
  | .corrected => .readCorrected
  | .noread => .readNoread
  | .printData => .readPrintData
  | .mismatch => .readMismatch

/-- The NOREAD run of the printing head after a result (R114). -/
def runAfter (run : Nat) : VerifyResult → Nat
  | .noread => min 15 (run + 1)
  | .matched => 0
  | .corrected => 0
  | .printData => run
  | .mismatch => run

/-- The result is charged to the head that printed; a NOREAD may start a swap (R114). -/
def chargeHead (p : Profile) (h : Head) (result : VerifyResult) (s : State) : State :=
  let e := s.headEntry h
  let run := runAfter e.run result
  applyIf (decide (result = .noread) && decide (p.headFailLimit ≤ run) && decide (e.state = .active))
    (swapHead p h) (setHead h { e with run := run } s)

/-- The verify window after a result joins it: the last 8 (R120). -/
def windowAfter (w : List VerifyResult) (result : VerifyResult) : List VerifyResult :=
  let w := w ++ [result]
  w.drop (w.length - Config.verifyWindowLength)

/-- The result joins the window; two MISMATCH results in it raise SLIP (R120). -/
def joinWindow (result : VerifyResult) (s : State) : State :=
  let w := windowAfter s.print.window result
  let s := { s with print := { s.print with window := w } }
  applyIf (decide (2 ≤ w.count .mismatch)) (fun s => raiseHalt .slip (bump .slips s)) s

/-- A result is entered in its pocket, with READ_BACK no longer pending (R112). A CORRECTED result sets its flag
in the context while the pocket has its reference, until a remake of the subscriber is fed: from then on the
reports of the faulted predecessor do not touch the context (R146; DEDUCED, log 37). -/
def enterResult (i : Nat) (k : Pocket) (result : VerifyResult) (s : State) : State :=
  applyIf (decide (result = .corrected))
    (updateLatestContext k fun c => { c with verifyCorrected := true })
    (setPocket i { k with pend := { k.pend with readBack := false }, verify := some result } s)

/-- The fault of a result is handed to the Reject and Remake Unit (R112). -/
def faultResult (i : Nat) (result : VerifyResult) (s : State) : State :=
  match verifyFault result with
  | none => s
  | some cause => handFault i cause none false s

/-- The three places a result goes on to (R112): the counters (R121), the NOREAD run of the head that printed
(R114) and the window (R120). R112 gives them no order. Where one NOREAD both swaps the last head, which
raises NO_PRINT, and leaves two MISMATCH in the window, which raises SLIP, R181 lets either cause be first:
the model charges the head first, so that the NO_PRINT drain is counted and its stop cause is kept through
the halt (DESIGN CHOICE, log 41). -/
def spreadResult (p : Profile) (h : Head) (result : VerifyResult) (s : State) : State :=
  joinWindow result (chargeHead p h result (bump (verifyCounter result) s))

/-- A judged reply: its entry leaves the list (R108), the pocket takes the result, its fault is handed over, and
the result goes on to its three places (R112). Whether the head is charged before or after the fault is taken
is told in two ways: R112 hands the fault and has the result "then" go on, and R140 has the unit "entered the
verify result and charged the head" already when a later fault is counted. The model follows R140 for a later
fault, which is taken after all three places, and R112 for the first fault of a LIVE pocket, which is taken
before them (DESIGN CHOICE, log 54). -/
def takeResult (p : Profile) (i : Nat) (k : Pocket) (r : ReadBack) (result : VerifyResult)
    (s : State) : State :=
  let s := enterResult i k result { s with print := { s.print with
    readBacks := s.print.readBacks.filter fun q => q.pocket ≠ r.pocket } }
  settle (if k.state = .live then spreadResult p r.head result (faultResult i result s)
    else faultResult i result (spreadResult p r.head result s))

/-- READ. A message whose check fails, or taken with no job loaded, is discarded (R111); an unmatched
one is counted. -/
def execRead (tag : Tag) (jobTag : BitVec 16) (serial : Word) (checkValue : BitVec 16)
    (corrected checkOk : Bool) (s : State) : Answer :=
  match s.job with
  | none => .next s
  | some p =>
    if !checkOk then .next s
    else match matchReply tag s with
      | none => .next (bump .readStrays s)
      | some (i, k, r) =>
        .next (takeResult p i k r
          (judgeRead p r jobTag.toNat serial.toNat checkValue.toNat corrected) s)

/-- NOREAD. -/
def execNoread (tag : Tag) (checkOk : Bool) (s : State) : Answer :=
  match s.job with
  | none => .next s
  | some p =>
    if !checkOk then .next s
    else match matchReply tag s with
      | none => .next (bump .readStrays s)
      | some (i, k, r) => .next (takeResult p i k r .noread s)

end Sys2Proof.Machine
end

