-- ==== Sys2Proof/Machine/Scanning.lean ====
section
/-! DEFINITION. The meanings of the Request Scanner's commands, of LOAD_JOB and of the status timer (11,
10). A request is carried out by its own command once a scan has handed it over (log 21). -/

namespace Sys2Proof.Machine

/-! ## Scanning -/

/-- SCAN_TIMER: the whole request section is read in one read (R184). -/
def scan (s : State) : State :=
  if s.link.enable && !accessStopped s then
    issueRead .requestSection [(controlBlock s + 0x100, 128)] s
  else s

/-- SCAN_TIMER. -/
def execScanTimer (s : State) : Answer := .next (scan s)

/-- The copy of a slot (R184). -/
def parseSlot (data : List Byte) (slot : Fin 4) : Request :=
  let o := 32 * slot.val
  { slot := slot, code := fieldAt data (o + 0x02) 2, hostTag := BitVec.ofNat 32 (fieldAt data (o + 0x04) 4),
    param0 := fieldAt data (o + 0x08) 4, param1 := fieldAt data (o + 0x0C) 4,
    param2 := fieldAt data (o + 0x10) 4, param3 := fieldAt data (o + 0x14) 4, phase := .handed }

/-- The lowest-indexed slot whose state reads POSTED (R183, R184). -/
def postedSlot (data : List Byte) : Option (Fin 4) :=
  (List.finRange 4).find? fun n => byteAt data (32 * n.val) == slotPosted

/-- A slot is taken: its copy becomes the request in progress, and TAKEN and no result are written. -/
def takeSlot (data : List Byte) (slot : Fin 4) (s : State) : State :=
  let s := { s with request := some (parseSlot data slot) }
  hostWrite (slotAddress s slot + 0x01) (leBytes 1 0)
    (hostWrite (slotAddress s slot) (leBytes 1 slotTaken) s)

/-- What a scan takes from the section it has read (R184, log 22). R184 does not say when "a request is in
progress" is judged: the model judges it at the completion of the section read, not at the expiry of the
timer. A scan begun during a request whose read completes after that request has ended may therefore take a
slot that its data, which may be stale by then, shows POSTED (DESIGN CHOICE, log 48). -/
def takeScan (data : List Byte) (s : State) : State :=
  if s.link.enable && s.request.isNone then
    match postedSlot data with
    | none => s
    | some slot => takeSlot data slot s
  else s

/-- REQUEST_SECTION_READ_DONE. -/
def execRequestSectionReadDone (completed : CompletedRead) (s : State) : Answer :=
  let t := takeCompletion completed.origin .requestSection s
  if dataUsed completed.origin .requestSection s then .next (takeScan completed.data t) else .next t

/-- A request whose code names no request has just been taken. -/
def unknownHanded (s : State) : Bool :=
  s.request.any fun r => (decide (r.code = 0) || decide (15 < r.code)) && decide (r.phase = .handed)

/-- UNKNOWN_REQUEST: the request completes UNKNOWN with result word 0 (R184). -/
def execUnknownRequest (s : State) : Answer :=
  if unknownHanded s then .next (finishCode .unknown 0 s) else .next s

/-! ## LOAD_JOB -/

/-- A gap of serial 0 (R20). -/
def firstGap : Pocket :=
  { serial := 0, kind := .gap, state := .empty, subscriber := none, attempt := none, sort := none,
    feed := StationSet.empty,
    pend := { stations := StationSet.empty, headAck := false, readBack := false },
    fault := none, printedBy := none, thickness := none, verify := none }

/-- R20. -/
def firstTrack (p : Profile) : Track :=
  { accumulator := 0, deficit := 0, raised := 0, base := 0, nextSerial := 1,
    entries := Vector.ofFn fun i : Fin 128 => if i.val < p.trackLen then some firstGap else none }

/-- R27. -/
def firstFetcher (p : Profile) : Fetcher :=
  { Fetcher.reset with state := .waiting, source := .first p.firstPage, heldLink := p.firstPage,
                       expected := 1, nextOrdinal := 1 }

/-- R70: the profile fields are copied; a fitted station is ONLINE with its timer restarted, and the
last STATE of every station keeps its value. R70 gives counts 0 and no fault cause to the fitted stations;
that one not fitted, which becomes OFFLINE, takes them too is the model's (DESIGN CHOICE, log 42). -/
def firstStation (e : Station) (q : StationProfile) : Station :=
  { fitted := q.isFitted, position := q.position, thickness := q.thickness, missLimit := q.missLimit,
    doubleLimit := q.doubleLimit, bypassAction := q.faultAction == 1,
    state := (if q.isFitted then .online else .offline), cause := none, misses := 0, doubles := 0,
    lastState := e.lastState, timer := e.timer || q.isFitted }

/-- R104. -/
def firstHead (fitted : Bool) : HeadEntry :=
  { state := (if fitted then .standby else .off), purges := 0, countdown := 0, run := 0 }

/-- R88. -/
def firstGauge (p : Profile) : Gauge :=
  { state := (if p.gaugeFitted = 1 then .active else .off), z16 := 16 * p.initialZero,
    zRef := 16 * p.initialZero }

/-- Job state as LOAD_JOB initialises it, in one event (R171). -/
def initJobState (p : Profile) (s : State) : State :=
  { s with
    profile := some p, fetcher := firstFetcher p, staging := [],
    contexts := Vector.replicate 128 none,
    intake := { holds := { Holds.empty with line := true, noHead := true }, window := none },
    track := firstTrack p,
    stations := Vector.ofFn fun n : Fin 12 => firstStation (s.stations.get n) (p.stations.get n),
    gauge := firstGauge p,
    print := { headA := firstHead p.headAFitted, headB := firstHead p.headBFitted, readBacks := [],
               window := [] },
    wrap := .reset, remakes := [], gate := .pass, bundles := [],
    line := { Line.reset with state := .ready }, counters := .reset }

/-- Job state is initialised and the status section written in full (R171, R188). -/
def initJob (p : Profile) (s : State) : State := raise .lineState (writeStatus (initJobState p s))

/-- LOAD_JOB is taken in IDLE and COMPLETE: the profile section is read (R169). A request that finds
access stopped is abandoned, since its read cannot be made (log 20). -/
def serveLoadJob (s : State) : State :=
  if s.line.state = .idle ∨ s.line.state = .complete then
    if accessStopped s then { s with request := none }
    else setPhase .readingProfile (issueRead .profile [(controlBlock s, 256)] s)
  else finishCode .badState s.line.state.code s

/-- LOAD_JOB. -/
def execLoadJob (s : State) : Answer :=
  match handedRequest 1 s with
  | none => .next s
  | some _ => .next (serveLoadJob s)

/-- The profile read is checked (R170), and loaded where every check passes (R169, R171). -/
def takeProfile (p : Profile) (s : State) : State :=
  match p.firstFailure with
  | some index => finishCode .badValue index s
  | none => finishCode .doneOk 0 (initJob p s)

/-- LOAD_JOB waits for its profile. -/
def readingProfile (s : State) : Bool := s.request.any fun r => decide (r.phase = .readingProfile)

/-- PROFILE_READ_DONE. -/
def execProfileReadDone (completed : CompletedRead) (s : State) : Answer :=
  let t := takeCompletion completed.origin .profile s
  if dataUsed completed.origin .profile s && readingProfile s then
    .next (takeProfile (parseProfile completed.data) t)
  else .next t

/-! ## The status timer -/

/-- STATUS_REFRESH: the job totals are written every 10 ms while a job is loaded (R188). -/
def execStatusRefresh (s : State) : Answer :=
  .next (applyIf s.job.isSome writeTotals s)

end Sys2Proof.Machine
end

