-- ==== Sys2Proof/Machine/TrackEvents.lean ====
section
/-! DEFINITION. The meanings of the track's commands (01, 03, 06): counts, the pitch event, and the
expiries that a pitch event brings. -/

namespace Sys2Proof.Machine

/-- A forward count (R2, R3): it repays the deficit, or adds 1 to the accumulator; at CPP one pitch
event is raised and the accumulator returns to 0. -/
def forwardStep (p : Profile) (t : Track) : Track :=
  if 0 < t.deficit then { t with deficit := t.deficit - 1 }
  else if p.cpp ≤ t.accumulator + 1 then { t with accumulator := 0, raised := t.raised + 1 }
  else { t with accumulator := t.accumulator + 1 }

/-- The deficit after a reverse count (R3). -/
def deficitAfter (deficit : Nat) : Nat :=
  if deficit < Config.countLimit then deficit + 1 else deficit

/-- A reverse count takes the deficit from at or below CPP/2 to above it (R4). -/
def crossesHalf (p : Profile) (before after : Nat) : Bool :=
  decide (2 * before ≤ p.cpp) && decide (p.cpp < 2 * after)

/-- FORWARD_COUNT. In IDLE each count is discarded (R1). -/
def execForwardCount (s : State) : Answer :=
  match s.job with
  | none => .next s
  | some p => .next { s with track := forwardStep p s.track }

/-- A reverse count while a job is loaded (R3, R4). R4 does not say whether REVERSE_COUNTS rises before or
after the REVERSE halt entry that the same count brings, which shows in the job totals written at the change
to HALTED: the model counts first (DESIGN CHOICE, log 44). -/
def reverseStep (p : Profile) (s : State) : State :=
  let d := deficitAfter s.track.deficit
  let crosses := crossesHalf p s.track.deficit d
  applyIf crosses (raiseHalt .reverse)
    (bump .reverseCounts { s with track := { s.track with deficit := d } })

/-- REVERSE_COUNT. -/
def execReverseCount (s : State) : Answer :=
  match s.job with
  | none => .next s
  | some p => .next (reverseStep p s)

/-- PITCH_EVENT: a pitch event that the Track has raised is taken; with none raised there is no pitch
event to take (R2, log 3). The arrival at GAUGE uses the conversion of the analog input (R89). -/
def execPitchEvent (input : Int) (order : List PitchPart) (s : State) : Answer :=
  match s.job with
  | none => .next s
  | some p => if 0 < s.track.raised then .next (takePitch p (convert input) order s) else .next s

/-- TAIL_WINDOW_EXPIRY: the expiry of R59, where its two conditions hold. -/
def execTailWindowExpiry (s : State) : Answer :=
  match s.job, tailingBundle s with
  | some p, some b => if windowExpired p b s then .next (settle (expiryTest p s)) else .next s
  | _, _ => .next s

/-- PURGE_END: the purge of a head whose countdown is 0 ends (R115). -/
def execPurgeEnd (head : Head) (s : State) : Answer :=
  let e := s.headEntry head
  if e.state = .purging ∧ e.countdown = 0 then .next (settle (endPurge head s)) else .next s

end Sys2Proof.Machine
end

