-- ==== Sys2Proof/Machine/UnitRequests.lean ====
section
/-! DEFINITION. The meanings of the requests on stations, gauge, heads and counters (04, 05, 06, 11). -/

namespace Sys2Proof.Machine

/-! ## Stations -/

/-- The station that a parameter word names, from 0 to 11. -/
def namedStation (param : Nat) : Option (Fin 12) :=
  if h : param < 12 then some ⟨param, h⟩ else none

/-- A station made BYPASSED by SET_STATION from ONLINE or FAULTED (R83). -/
def Station.bypassedBy (e : Station) : Station :=
  { e with state := .bypassed, misses := 0, doubles := 0,
           cause := (if e.state = .faulted then e.cause else none) }

/-- A station returned to ONLINE (R83, R84). -/
def Station.returned (e : Station) : Station :=
  { e with state := .online, misses := 0, doubles := 0, cause := none }

/-- The result of SET_STATION on a station whose parameters have passed, and the entry after it
(R83). An OFFLINE station is not fitted, so it does not come here; it is left as it is. -/
def setMode (e : Station) (bypass : Bool) : RequestResult × Station :=
  match e.state, bypass with
  | .online, false => (.doneOk, e)
  | .online, true => (.doneOk, e.bypassedBy)
  | .bypassed, false =>
    if e.lastState = some .ready then (.doneOk, e.returned) else (.badState, e)
  | .bypassed, true => (.doneOk, e)
  | .faulted, false => (.badState, e)
  | .faulted, true => (.doneOk, e.bypassedBy)
  | .offline, _ => (.badState, e)

/-- The cases of R83 that give BAD_VALUE, for a station that exists. -/
def badMode (n : Fin 12) (e : Station) (mode : Nat) : Bool :=
  decide (1 < mode) || !e.fitted ||
  (decide (mode = 1) && (decide (n = mainStation) || decide (n = carrierStation)))

/-- SET_STATION (R83), with its result words as that rule reads (log 32). IDLE is judged before the
parameters (DESIGN CHOICE, log 34). -/
def serveSetStation (r : Request) (s : State) : State :=
  match namedStation r.param0 with
  | none => finishFree (if s.job.isNone then .badState else .badValue) s
  | some n =>
    let e := s.stations.get n
    if s.job.isNone then finishCode .badState (lastStateCode e.lastState) s
    else if badMode n e r.param1 then finishCode .badValue e.state.code s
    else match setMode e (decide (r.param1 = 1)) with
      | (.badState, _) => finishCode .badState (lastStateCode e.lastState) s
      | (result, e) => finishCode result e.state.code (setStation n e s)

/-- SET_STATION. -/
def execSetStation (s : State) : Answer :=
  match handedRequest 9 s with
  | none => .next s
  | some r => .next (serveSetStation r s)

/-- CLEAR_STATION on a station (R84). -/
def clearStation (n : Fin 12) (s : State) : State :=
  let e := s.stations.get n
  if !e.fitted then finishFree .badValue s
  else if e.state ≠ .faulted then finishCode .badState e.state.code s
  else if e.lastState ≠ some .ready then finishCode .badState (lastStateCode e.lastState) s
  else finishCode .doneOk (stationCauseCode e.cause) (setStation n e.returned s)

/-- CLEAR_STATION (R84). IDLE is judged before the parameter (DESIGN CHOICE, log 34): the station named is
not FAULTED there, and its state is the result word. -/
def serveClearStation (r : Request) (s : State) : State :=
  match namedStation r.param0 with
  | none => finishFree (if s.job.isNone then .badState else .badValue) s
  | some n =>
    if s.job.isNone then finishCode .badState (s.stations.get n).state.code s
    else clearStation n s

/-- CLEAR_STATION. -/
def execClearStation (s : State) : Answer :=
  match handedRequest 10 s with
  | none => .next s
  | some r => .next (serveClearStation r s)

/-- The sum of T over the fitted stations of the Station Table (R85). -/
def fittedThickness (stations : Vector Station 12) : Nat :=
  ((stations.toList.filter Station.fitted).map Station.thickness).sum

/-- SET_THICKNESS on a station (R85). -/
def changeThickness (n : Fin 12) (t : Nat) (s : State) : State :=
  let stations := s.stations.set n.val { s.stations.get n with thickness := t } n.isLt
  if !(s.stations.get n).fitted || decide (20000 < t) || decide (60000 < fittedThickness stations) then
    finishFree .badValue s
  else finishCode .doneOk (fittedThickness stations) { s with stations := stations }

/-- SET_THICKNESS (R85). The line state is judged before the parameters (DESIGN CHOICE, log 34). -/
def serveSetThickness (r : Request) (s : State) : State :=
  if s.line.state = .ready ∨ s.line.state = .paused then
    match namedStation r.param0 with
    | none => finishFree .badValue s
    | some n => changeThickness n r.param1 s
  else finishFree .badState s

/-- SET_THICKNESS. -/
def execSetThickness (s : State) : Answer :=
  match handedRequest 11 s with
  | none => .next s
  | some r => .next (serveSetThickness r s)

/-! ## The gauge -/

/-- CALIBRATE_GAUGE (R101). In IDLE the gauge is OFF. -/
def serveCalibrate (s : State) : State :=
  if s.job.isNone ∨ s.gauge.state = .off then finishCode .badState 0 s
  else finishCode .doneOk s.gauge.state.code (setGauge { s.gauge with state := .calibrating } s)

/-- CALIBRATE_GAUGE. -/
def execCalibrateGauge (s : State) : Answer :=
  match handedRequest 12 s with
  | none => .next s
  | some _ => .next (serveCalibrate s)

/-! ## Heads -/

/-- The head that a parameter word names: 0 for A, 1 for B. -/
def namedHead (param : Nat) : Option Head :=
  if param = 0 then some .a else if param = 1 then some .b else none

/-- The head named becomes ACTIVE, and the other, if it was ACTIVE, STANDBY; NO_HEAD is judged (R118). R118
names the new ACTIVE head first and gives the two state writes no order: the model writes STANDBY of the
other head first, so that no two heads read ACTIVE, and then ACTIVE (DESIGN CHOICE, log 47). -/
def switchHeads (h : Head) (s : State) : State :=
  let o := s.headEntry (otherHead h)
  let s := applyIf (decide (o.state = .active)) (setHead (otherHead h) { o with state := .standby }) s
  refreshHolds (setHead h { s.headEntry h with state := .active } s)

/-- SELECT_HEAD on a head (R118). -/
def selectHead (h : Head) (s : State) : State :=
  let e := s.headEntry h
  if e.state = .standby then
    let t := switchHeads h s
    finishCode .doneOk (t.headEntry (otherHead h)).state.code t
  else finishCode .badState e.state.code s

/-- RESTORE_HEAD on a head (R119). R119 has the head become STANDBY and, with no head ACTIVE, ACTIVE at once,
and R104 has each change of a head state written; whether a STANDBY that does not last is such a change is
open. The model makes one change and writes ACTIVE only (DESIGN CHOICE, log 46). -/
def restoreHead (h : Head) (s : State) : State :=
  let e := s.headEntry h
  if e.state = .failed then
    let state := if headActive s then HeadState.standby else .active
    finishCode .doneOk state.code
      (refreshHolds (setHead h { e with state := state, purges := 0, run := 0 } s))
  else finishCode .badState e.state.code s

/-- SELECT_HEAD and RESTORE_HEAD name a head in parameter word 0, which the loaded profile has fitted (R118,
R119). In IDLE they give BAD_STATE with the state of the head named, which is OFF (R104). Which of
BAD_STATE and BAD_VALUE comes first is not given: the model judges IDLE first (DESIGN CHOICE, log 34). -/
def serveHead (serve : Head → State → State) (r : Request) (s : State) : State :=
  match namedHead r.param0 with
  | none => finishFree (if s.job.isNone then .badState else .badValue) s
  | some h =>
    match s.job with
    | none => finishCode .badState (s.headEntry h).state.code s
    | some p => if p.headFitted h then serve h s else finishFree .badValue s

/-- SELECT_HEAD. -/
def execSelectHead (s : State) : Answer :=
  match handedRequest 13 s with
  | none => .next s
  | some r => .next (serveHead selectHead r s)

/-- RESTORE_HEAD. -/
def execRestoreHead (s : State) : Answer :=
  match handedRequest 14 s with
  | none => .next s
  | some r => .next (serveHead restoreHead r s)

/-! ## SNAPSHOT -/

/-- The interval counters are zeroed and the snapshot sequence rises by 1 (R190). -/
def newInterval (s : State) : State :=
  { s with counters := { s.counters with
      interval := Vector.replicate 64 0, stationInterval := Vector.replicate 48 0,
      snapshots := snapshotAfter s.counters.snapshots } }

/-- The values of one moment are written: the job-total areas, the interval areas, then the sequence
(R190). -/
def writeSnapshot (taken : Counters) (s : State) : State :=
  let s := statusWrite 0x410 (bankBytes taken.total.toList) s
  let s := statusWrite 0x700 (bankBytes taken.stationTotal.toList) s
  let s := statusWrite 0x510 (bankBytes taken.interval.toList) s
  let s := statusWrite 0x7C0 (bankBytes taken.stationInterval.toList) s
  statusWrite 0x400 (leBytes 4 s.counters.snapshots.toNat) s

/-- SNAPSHOT (R190). -/
def serveSnapshot (s : State) : State :=
  if s.job.isNone then finishCode .badState 0 s
  else
    let t := writeSnapshot s.counters (newInterval s)
    finish .doneOk t.counters.snapshots t

/-- SNAPSHOT. -/
def execSnapshot (s : State) : Answer :=
  match handedRequest 15 s with
  | none => .next s
  | some _ => .next (serveSnapshot s)

end Sys2Proof.Machine
end

