-- ==== Sys2Proof/Machine/Dispatch.lean ====
section
/-! DEFINITION. The dispatch of every command to its meaning: one arm for each constructor of Instr. -/

namespace Sys2Proof.Machine

def exec (i : Instr) (s : State) : Host.Outcome State Fault Refusal :=
  match i with
  | .powerOn => Sys2Proof.Machine.execPowerOn s
  | .softReset enableBit => Sys2Proof.Machine.execSoftReset enableBit s
  | .enable bit => Sys2Proof.Machine.execEnable bit s
  | .attentionClear value => Sys2Proof.Machine.execAttentionClear value s
  | .anchorWrite high value => Sys2Proof.Machine.execAnchorWrite high value s
  | .registerWrite offset value => Sys2Proof.Machine.execRegisterWrite offset value s
  | .forwardCount => Sys2Proof.Machine.execForwardCount s
  | .reverseCount => Sys2Proof.Machine.execReverseCount s
  | .pitchEvent input order => Sys2Proof.Machine.execPitchEvent input order s
  | .tailWindowExpiry => Sys2Proof.Machine.execTailWindowExpiry s
  | .purgeEnd head => Sys2Proof.Machine.execPurgeEnd head s
  | .pick address tag result checkOk => Sys2Proof.Machine.execPick address tag result checkOk s
  | .stateMessage address condition temperature checkOk => Sys2Proof.Machine.execStateMessage address condition temperature checkOk s
  | .silenceTimeout address => Sys2Proof.Machine.execSilenceTimeout address s
  | .stalenessTimeout => Sys2Proof.Machine.execStalenessTimeout s
  | .filmCount forward => Sys2Proof.Machine.execFilmCount forward s
  | .done head tag checkOk => Sys2Proof.Machine.execDone head tag checkOk s
  | .headError head tag checkOk => Sys2Proof.Machine.execHeadError head tag checkOk s
  | .read tag jobTag serial checkValue corrected checkOk => Sys2Proof.Machine.execRead tag jobTag serial checkValue corrected checkOk s
  | .noread tag checkOk => Sys2Proof.Machine.execNoread tag checkOk s
  | .stackerReadyChange ready => Sys2Proof.Machine.execStackerReadyChange ready s
  | .stackerPulseEnd => Sys2Proof.Machine.execStackerPulseEnd s
  | .guardChange closed => Sys2Proof.Machine.execGuardChange closed s
  | .driveReadyChange asserted => Sys2Proof.Machine.execDriveReadyChange asserted s
  | .drainEnd => Sys2Proof.Machine.execDrainEnd s
  | .fileEnd => Sys2Proof.Machine.execFileEnd s
  | .jobComplete => Sys2Proof.Machine.execJobComplete s
  | .bundleClose closeSerial => Sys2Proof.Machine.execBundleClose closeSerial s
  | .pageClose => Sys2Proof.Machine.execPageClose s
  | .fetchStart => Sys2Proof.Machine.execFetchStart s
  | .linkPoll => Sys2Proof.Machine.execLinkPoll s
  | .linkReadDone completed => Sys2Proof.Machine.execLinkReadDone completed s
  | .headerReadDone completed => Sys2Proof.Machine.execHeaderReadDone completed s
  | .recordsReadDone completed => Sys2Proof.Machine.execRecordsReadDone completed s
  | .readErrorCompletion failed => Sys2Proof.Machine.execReadErrorCompletion failed s
  | .readTimeout kind => Sys2Proof.Machine.execReadTimeout kind s
  | .pcieLinkInactive => Sys2Proof.Machine.execPcieLinkInactive s
  | .scanTimer => Sys2Proof.Machine.execScanTimer s
  | .unknownRequest => Sys2Proof.Machine.execUnknownRequest s
  | .loadJob => Sys2Proof.Machine.execLoadJob s
  | .profileReadDone completed => Sys2Proof.Machine.execProfileReadDone completed s
  | .start => Sys2Proof.Machine.execStart s
  | .pause => Sys2Proof.Machine.execPause s
  | .drain => Sys2Proof.Machine.execDrain s
  | .clearHalt => Sys2Proof.Machine.execClearHalt s
  | .abortJob => Sys2Proof.Machine.execAbortJob s
  | .retryPage => Sys2Proof.Machine.execRetryPage s
  | .skipPage => Sys2Proof.Machine.execSkipPage s
  | .setStation => Sys2Proof.Machine.execSetStation s
  | .clearStation => Sys2Proof.Machine.execClearStation s
  | .setThickness => Sys2Proof.Machine.execSetThickness s
  | .calibrateGauge => Sys2Proof.Machine.execCalibrateGauge s
  | .selectHead => Sys2Proof.Machine.execSelectHead s
  | .restoreHead => Sys2Proof.Machine.execRestoreHead s
  | .snapshot => Sys2Proof.Machine.execSnapshot s
  | .statusRefresh => Sys2Proof.Machine.execStatusRefresh s
  | .requestSectionReadDone completed => Sys2Proof.Machine.execRequestSectionReadDone completed s
  | .pcieLinkActive => Sys2Proof.Machine.execPcieLinkActive s
  | .interruptAddressConfig address => Sys2Proof.Machine.execInterruptAddressConfig address s

end Sys2Proof.Machine
end

