-- ==== Sys2Proof/Safety.lean ====
section
/-! DEFINITION. What the claims about the block are stated in: what a command leaves as it was, the link
conditions under which a write goes out at once, what the completion of a request sends, and the
invariants that every step keeps. -/

namespace Sys2Proof.Machine

/-! ## What is left as it was -/

/-- The registers, the link's own levels, the reads abandoned, and the snapshot sequence are the same. -/
abbrev LinkKept (t s : State) : Prop :=
  t.link.enable = s.link.enable ∧ t.link.mask = s.link.mask ∧
  t.link.anchorLow = s.link.anchorLow ∧ t.link.anchorHigh = s.link.anchorHigh ∧
  t.link.active = s.link.active ∧ t.link.interruptAddress = s.link.interruptAddress ∧
  t.link.abandoned = s.link.abandoned ∧ t.counters.snapshots = s.counters.snapshots

/-- All but the link, what was sent and the counters is the same. -/
abbrev SameButLink (t s : State) : Prop :=
  t.pending = s.pending ∧ t.request = s.request ∧ t.profile = s.profile ∧ t.fetcher = s.fetcher ∧
  t.staging = s.staging ∧ t.contexts = s.contexts ∧ t.intake = s.intake ∧ t.track = s.track ∧
  t.stations = s.stations ∧ t.sealerTimer = s.sealerTimer ∧ t.gauge = s.gauge ∧
  t.print = s.print ∧ t.wrap = s.wrap ∧ t.remakes = s.remakes ∧ t.gate = s.gate ∧
  t.bundles = s.bundles ∧ t.stacker = s.stacker ∧ t.line = s.line ∧ t.inputs = s.inputs ∧
  t.freeCount = s.freeCount ∧ LinkKept t s

/-- All but the line record, the hold-cause set, the runaway mark and what SameButLink leaves out is the
same. -/
abbrev SameButLine (t s : State) : Prop :=
  t.pending = s.pending ∧ t.request = s.request ∧ t.profile = s.profile ∧ t.fetcher = s.fetcher ∧
  t.staging = s.staging ∧ t.contexts = s.contexts ∧ t.intake.window = s.intake.window ∧ t.track = s.track ∧
  t.stations = s.stations ∧ t.sealerTimer = s.sealerTimer ∧ t.gauge = s.gauge ∧
  t.print = s.print ∧ t.remakes = s.remakes ∧ t.gate = s.gate ∧ t.bundles = s.bundles ∧
  t.stacker = s.stacker ∧ t.inputs = s.inputs ∧ t.freeCount = s.freeCount ∧ LinkKept t s

/-- All but the Station Table and what SameButLink leaves out is the same. -/
abbrev SameButStations (t s : State) : Prop :=
  t.pending = s.pending ∧ t.request = s.request ∧ t.profile = s.profile ∧ t.fetcher = s.fetcher ∧
  t.staging = s.staging ∧ t.contexts = s.contexts ∧ t.intake = s.intake ∧ t.track = s.track ∧
  t.sealerTimer = s.sealerTimer ∧ t.gauge = s.gauge ∧ t.print = s.print ∧ t.wrap = s.wrap ∧
  t.remakes = s.remakes ∧ t.gate = s.gate ∧ t.bundles = s.bundles ∧ t.stacker = s.stacker ∧
  t.line = s.line ∧ t.inputs = s.inputs ∧ t.freeCount = s.freeCount ∧ LinkKept t s

/-- All but the Print and Read-Back Unit, the hold-cause set and what SameButLink leaves out is the same. -/
abbrev SameButPrint (t s : State) : Prop :=
  t.pending = s.pending ∧ t.request = s.request ∧ t.profile = s.profile ∧ t.fetcher = s.fetcher ∧
  t.staging = s.staging ∧ t.contexts = s.contexts ∧ t.intake.window = s.intake.window ∧ t.track = s.track ∧
  t.stations = s.stations ∧ t.sealerTimer = s.sealerTimer ∧ t.gauge = s.gauge ∧ t.wrap = s.wrap ∧
  t.remakes = s.remakes ∧ t.gate = s.gate ∧ t.bundles = s.bundles ∧ t.stacker = s.stacker ∧
  t.line = s.line ∧ t.inputs = s.inputs ∧ t.freeCount = s.freeCount ∧ LinkKept t s

/-- All but the gauge and what SameButLink leaves out is the same. -/
abbrev SameButGauge (t s : State) : Prop :=
  t.pending = s.pending ∧ t.request = s.request ∧ t.profile = s.profile ∧ t.fetcher = s.fetcher ∧
  t.staging = s.staging ∧ t.contexts = s.contexts ∧ t.intake = s.intake ∧ t.track = s.track ∧
  t.stations = s.stations ∧ t.sealerTimer = s.sealerTimer ∧ t.print = s.print ∧ t.wrap = s.wrap ∧
  t.remakes = s.remakes ∧ t.gate = s.gate ∧ t.bundles = s.bundles ∧ t.stacker = s.stacker ∧
  t.line = s.line ∧ t.inputs = s.inputs ∧ t.freeCount = s.freeCount ∧ LinkKept t s

/-- All but the Wrap Monitor and what SameButLink leaves out is the same. -/
abbrev SameButWrap (t s : State) : Prop :=
  t.pending = s.pending ∧ t.request = s.request ∧ t.profile = s.profile ∧ t.fetcher = s.fetcher ∧
  t.staging = s.staging ∧ t.contexts = s.contexts ∧ t.intake = s.intake ∧ t.track = s.track ∧
  t.stations = s.stations ∧ t.sealerTimer = s.sealerTimer ∧ t.gauge = s.gauge ∧
  t.print = s.print ∧ t.remakes = s.remakes ∧ t.gate = s.gate ∧ t.bundles = s.bundles ∧
  t.stacker = s.stacker ∧ t.line = s.line ∧ t.inputs = s.inputs ∧ t.freeCount = s.freeCount ∧
  LinkKept t s

/-- All but the Page Fetcher and what SameButLink leaves out is the same. -/
abbrev SameButFetcher (t s : State) : Prop :=
  t.pending = s.pending ∧ t.request = s.request ∧ t.profile = s.profile ∧ t.staging = s.staging ∧
  t.contexts = s.contexts ∧ t.intake = s.intake ∧ t.track = s.track ∧ t.stations = s.stations ∧
  t.sealerTimer = s.sealerTimer ∧ t.gauge = s.gauge ∧ t.print = s.print ∧ t.wrap = s.wrap ∧
  t.remakes = s.remakes ∧ t.gate = s.gate ∧ t.bundles = s.bundles ∧ t.stacker = s.stacker ∧
  t.line = s.line ∧ t.inputs = s.inputs ∧ t.freeCount = s.freeCount ∧ LinkKept t s

/-- All but what settle may change is the same. -/
abbrev SameButSettled (t s : State) : Prop :=
  t.pending = s.pending ∧ t.request = s.request ∧ t.profile = s.profile ∧ t.staging = s.staging ∧
  t.contexts = s.contexts ∧ t.track = s.track ∧ t.stations = s.stations ∧
  t.sealerTimer = s.sealerTimer ∧ t.gauge = s.gauge ∧ t.print = s.print ∧ t.wrap = s.wrap ∧
  t.remakes = s.remakes ∧ t.gate = s.gate ∧ t.bundles = s.bundles ∧ t.stacker = s.stacker ∧
  t.line = s.line ∧ t.inputs = s.inputs ∧ t.freeCount = s.freeCount ∧ LinkKept t s

/-- All but what the end of a request may change is the same. -/
abbrev SameButDone (t s : State) : Prop :=
  t.pending = s.pending ∧ t.profile = s.profile ∧ t.staging = s.staging ∧
  t.contexts = s.contexts ∧ t.track = s.track ∧ t.stations = s.stations ∧
  t.sealerTimer = s.sealerTimer ∧ t.gauge = s.gauge ∧ t.print = s.print ∧ t.wrap = s.wrap ∧
  t.remakes = s.remakes ∧ t.gate = s.gate ∧ t.bundles = s.bundles ∧ t.stacker = s.stacker ∧
  t.line = s.line ∧ t.inputs = s.inputs ∧ t.freeCount = s.freeCount ∧ LinkKept t s

/-- All but the stacker lines and what SameButLink leaves out is the same. -/
abbrev SameButStacker (t s : State) : Prop :=
  t.pending = s.pending ∧ t.request = s.request ∧ t.profile = s.profile ∧ t.fetcher = s.fetcher ∧
  t.staging = s.staging ∧ t.contexts = s.contexts ∧ t.intake = s.intake ∧ t.track = s.track ∧
  t.stations = s.stations ∧ t.sealerTimer = s.sealerTimer ∧ t.gauge = s.gauge ∧
  t.print = s.print ∧ t.wrap = s.wrap ∧ t.remakes = s.remakes ∧ t.gate = s.gate ∧
  t.bundles = s.bundles ∧ t.line = s.line ∧ t.inputs = s.inputs ∧ t.freeCount = s.freeCount ∧
  LinkKept t s

/-- All but what the close of a page may change is the same. -/
abbrev SameButPages (t s : State) : Prop :=
  t.pending = s.pending ∧ t.request = s.request ∧ t.profile = s.profile ∧ t.staging = s.staging ∧
  t.contexts = s.contexts ∧ t.intake.window = s.intake.window ∧ t.track = s.track ∧ t.stations = s.stations ∧
  t.sealerTimer = s.sealerTimer ∧ t.gauge = s.gauge ∧ t.print = s.print ∧ t.wrap = s.wrap ∧
  t.remakes = s.remakes ∧ t.gate = s.gate ∧ t.bundles = s.bundles ∧ t.stacker = s.stacker ∧
  t.inputs = s.inputs ∧ t.freeCount = s.freeCount ∧ LinkKept t s

/-- All but what the close of a bundle may change is the same. -/
abbrev SameButBundles (t s : State) : Prop :=
  t.pending = s.pending ∧ t.request = s.request ∧ t.profile = s.profile ∧ t.staging = s.staging ∧
  t.contexts = s.contexts ∧ t.track = s.track ∧ t.stations = s.stations ∧
  t.sealerTimer = s.sealerTimer ∧ t.gauge = s.gauge ∧ t.print = s.print ∧ t.wrap = s.wrap ∧
  t.remakes = s.remakes ∧ t.gate = s.gate ∧ t.inputs = s.inputs ∧ t.freeCount = s.freeCount ∧
  LinkKept t s

/-- All but what a fault of a pocket may change is the same. -/
abbrev SameButPieces (t s : State) : Prop :=
  t.pending = s.pending ∧ t.request = s.request ∧ t.profile = s.profile ∧ t.staging = s.staging ∧
  t.stations = s.stations ∧ t.sealerTimer = s.sealerTimer ∧ t.gauge = s.gauge ∧
  t.print = s.print ∧ t.wrap = s.wrap ∧ t.gate = s.gate ∧ t.inputs = s.inputs ∧
  t.freeCount = s.freeCount ∧ LinkKept t s

/-- All but what a stop cause may change is the same. -/
abbrev SameButPaused (t s : State) : Prop :=
  t.pending = s.pending ∧ t.request = s.request ∧ t.profile = s.profile ∧ t.staging = s.staging ∧
  t.contexts = s.contexts ∧ t.track = s.track ∧ t.stations = s.stations ∧
  t.sealerTimer = s.sealerTimer ∧ t.gauge = s.gauge ∧ t.print = s.print ∧ t.remakes = s.remakes ∧
  t.gate = s.gate ∧ t.bundles = s.bundles ∧ t.stacker = s.stacker ∧ t.inputs = s.inputs ∧
  t.freeCount = s.freeCount ∧ LinkKept t s

/-- All but what a halt cause may change is the same. -/
abbrev SameButHalted (t s : State) : Prop :=
  t.pending = s.pending ∧ t.request = s.request ∧ t.profile = s.profile ∧ t.staging = s.staging ∧
  t.stations = s.stations ∧ t.sealerTimer = s.sealerTimer ∧ t.gauge = s.gauge ∧ t.wrap = s.wrap ∧
  t.gate = s.gate ∧ t.inputs = s.inputs ∧ t.freeCount = s.freeCount ∧ LinkKept t s

/-- All but what a pitch event may change is the same. -/
abbrev SameButPitch (t s : State) : Prop :=
  t.pending = s.pending ∧ t.request = s.request ∧ t.profile = s.profile ∧
  t.stations = s.stations ∧ t.sealerTimer = s.sealerTimer ∧ t.inputs = s.inputs ∧
  t.freeCount = s.freeCount ∧ LinkKept t s

/-! ## Counters and the track -/

/-- Both copies of a counter have risen by 1, each staying at its top (R189). -/
def Counted (c : LineCounter) (s t : State) : Prop :=
  t.counters.total.get c.index = satIncr (s.counters.total.get c.index) ∧
  t.counters.interval.get c.index = satIncr (s.counters.interval.get c.index)

/-- A counter after `n` more counts, staying at its top (R189). -/
def countedOn (n : Nat) (w : Word) : Word := BitVec.ofNat 32 (min (w.toNat + n) 4294967295)

/-- Both copies of a counter have risen by `n`, each staying at its top (R189). -/
def CountedTimes (n : Nat) (c : LineCounter) (s t : State) : Prop :=
  t.counters.total.get c.index = countedOn n (s.counters.total.get c.index) ∧
  t.counters.interval.get c.index = countedOn n (s.counters.interval.get c.index)

/-- Both copies of a counter are the same. -/
def NotCounted (c : LineCounter) (s t : State) : Prop :=
  t.counters.total.get c.index = s.counters.total.get c.index ∧
  t.counters.interval.get c.index = s.counters.interval.get c.index

/-- No counter but those listed has moved: none of the line bank, and none of the station bank. -/
def OnlyCounted (cs : List LineCounter) (s t : State) : Prop :=
  (∀ c : LineCounter, c ∉ cs → NotCounted c s t) ∧
  t.counters.stationTotal = s.counters.stationTotal ∧
  t.counters.stationInterval = s.counters.stationInterval

/-- The pocket of this tag on the track (R9): its entry, its record, and no other pocket of that tag. -/
abbrev TagAt (tag : Tag) (i : Nat) (k : Pocket) (s : State) : Prop :=
  s.track.pocketAt i = some k ∧ k.serial ≠ 0 ∧ tagOf k.serial = tag ∧
  ∀ j : Fin 128, j.val ≠ i → ∀ q ∈ s.track.pocketAt j.val, q.serial ≠ 0 → tagOf q.serial ≠ tag

/-- No pocket on the track that this tag finds has the property (R9). -/
abbrev NoTag (tag : Tag) (f : Pocket → Bool) (s : State) : Prop :=
  ∀ j : Fin 128, ∀ q ∈ s.track.pocketAt j.val, q.serial ≠ 0 → tagOf q.serial = tag → f q = false

/-- The pockets stand where they stood: the same serials in the same entries (R8, R23). -/
def SamePockets (s t : State) : Prop :=
  ∀ i : Fin 128, (t.track.pocketAt i.val).map (·.serial) = (s.track.pocketAt i.val).map (·.serial)

/-- The encoder's counts and the place of the table are the same (R23). -/
def SameChain (s t : State) : Prop :=
  t.track.accumulator = s.track.accumulator ∧ t.track.deficit = s.track.deficit ∧
  t.track.raised = s.track.raised ∧ t.track.base = s.track.base ∧
  t.track.nextSerial = s.track.nextSerial

/-- A count of a bundle has risen as `f` gives, in the sum that R159 tests: a bundle that it resolves closes
with the DONE_WAITING bundles behind it where it is the front one, and else waits (R160). -/
def BundleCounts (ordinal : Nat) (f : Bundle → Bundle) (s t : State) : Prop :=
  ∀ g, bundleAt ordinal s = some g →
    let resolves := (f g).resolved = g.size ∧ g.state ≠ .doneWaiting
    (¬ resolves →
      t.bundles = s.bundles.map fun b => if b.ordinal = ordinal then f b else b) ∧
    (resolves → (s.bundles.map Bundle.ordinal).Nodup →
      (s.bundles.head? = some g →
        t.bundles = s.bundles.tail.dropWhile fun c => decide (c.state = .doneWaiting)) ∧
      (s.bundles.head? ≠ some g → t.bundles = s.bundles.map fun b =>
        if b.ordinal = ordinal then { f b with state := .doneWaiting } else b))

/-- The line has been halted by a cause (R176): HALTED, no drain, run enable off, quick stop on; the stop
cause and file exhausted as they were. -/
def Halted (c : HaltCause) (s t : State) : Prop :=
  t.line = { s.line with state := .halted, drain := none, halt := c, runEnable := false,
                         quickStop := true }

/-- The line takes a halt cause (R176): a job is loaded, it is not HALTED already, and no ABORT_JOB is in
progress. -/
abbrev TakesHalt (s : State) : Prop :=
  s.line.state ≠ .idle ∧ s.line.state ≠ .halted ∧ abortInProgress s = false

/-- The line has been paused by a stop cause (R173). -/
def Paused (c : StopCause) (s t : State) : Prop :=
  t.line = { s.line with state := .paused, drain := none, stop := c, runEnable := false }

/-- The request in progress has this code and has just been handed to its owner (R184). -/
abbrev Asks (code : Nat) (r : Request) (s : State) : Prop :=
  s.request = some r ∧ r.code = code ∧ r.phase = .handed

/-! ## The link -/

/-- A write handed over goes out at once: ENABLE is set, host memory access has not stopped, the PCIe
link is active and nothing waits (R25, R26, R191). -/
abbrev LinkOpen (s : State) : Prop :=
  s.link.enable = true ∧ s.fetcher.state ≠ .linkDown ∧ s.link.active = true ∧ s.link.waiting = []

/-- The four writes into a slot at the completion of its request, in their order (R185). -/
def slotWrites (slot : Address) (word hostTag : Word) (result : RequestResult) : List Message :=
  [.write (slot + 0x18) (leBytes 4 word.toNat), .write (slot + 0x04) (leBytes 4 hostTag.toNat),
   .write (slot + 0x01) (leBytes 1 result.code), .write slot (leBytes 1 slotDone)]

/-- The slot of the request r has been answered with a result and a result word (R185): the writes into
the slot came after what the request's effect sent, and then REQ_DONE and at most its interrupt
message. -/
def SlotAnswered (r : Request) (result : RequestResult) (word : Word) (effect : List Message)
    (s t : State) : Prop :=
  t.link.attention.getLsbD 0 = true ∧
  ∃ interrupt, t.sent = s.sent ++ effect ++
      slotWrites (slotAddress s r.slot) word r.hostTag result ++ interrupt ∧
    (interrupt = [] ∨ ∃ a, interrupt = [.interrupt a .reqDone])

/-- The request r has completed with a result and a result word (R185): no request is in progress and
REQUESTS has risen by 1; where the link is open, its slot has been answered. The slot's writes come behind
everything the request brings about, a read that the fetcher then begins among it (the model's choice, log
51). -/
def Completed (r : Request) (result : RequestResult) (word : Word) (s t : State) : Prop :=
  t.request = none ∧
  Counted .requests s t ∧
  (LinkOpen s → ∃ effect, SlotAnswered r result word effect s t)

/-! ## The status section -/

/-- These bytes have been written at an address since, in a write of their own or as part of a longer one. -/
def Written (a : Address) (bytes : List Byte) (s t : State) : Prop :=
  ∃ b d, .write b d ∈ t.sent.drop s.sent.length ∧ b ≤ a ∧ bytes <+: d.drop (a - b)

/-- A field of the status section follows the value it mirrors (R188): where the value has changed, the new
one has been written at the field's offset. -/
abbrev FieldFollows (offset size : Nat) (value : State → Nat) (s t : State) : Prop :=
  value t ≠ value s → Written (controlBlock s + offset) (leBytes size (value t)) s t

/-- The job totals of both banks have been written (R188). -/
abbrev TotalsWritten (s t : State) : Prop :=
  (∃ bank : List Byte, bank.length = 256 ∧
    .write (controlBlock s + 0x300) bank ∈ t.sent.drop s.sent.length) ∧
  ∃ bank : List Byte, bank.length = 192 ∧
    .write (controlBlock s + 0x640) bank ∈ t.sent.drop s.sent.length

/-- No write has been sent since. -/
def NothingWritten (s t : State) : Prop := ∀ a d, .write a d ∉ t.sent.drop s.sent.length

/-! ## The bytes written into a page

Which fields share one write is the model's choice (log 50). -/

/-- The writes of a final outcome of the record that a context stands for, in their order (R43): the
fields of the outcome half (attempts, last fault cause and station, bypassed stations, flags, final
pocket serial), the outcome code, and the final count of the page raised by 1. -/
def outcomeWrites (q : OpenPage) (c : Context) (pocketSerial : Word) (o : PieceOutcome) :
    List Message :=
  let record := q.address + 64 + 256 * c.recordSlot
  let cause := match c.lastFault with
    | none => 0
    | some (f, _) => f.code
  let station := match c.lastFault with
    | some (_, some n) => n.val
    | _ => 255
  [.write (record + 0xE1) (leBytes 1 c.attempts ++ leBytes 1 cause ++ leBytes 1 station ++
      leBytes 2 c.bypassed.toNat ++ leBytes 1 (c.gaugeSkipped.toNat + 2 * c.verifyCorrected.toNat)),
   .write (record + 0xE8) (leBytes 4 pocketSerial.toNat),
   .write (record + 0xE0) (leBytes 1 o.code),
   .write (q.address + 0x14) (leBytes 2 (q.final + 1))]

/-- The writes of a bundle report into the record that opened the bundle, in their order (R44): the four
counts and the close pocket serial, then the close state. -/
def reportWrites (q : OpenPage) (b : Bundle) (closeSerial : Word) (state : CloseState) :
    List Message :=
  let record := q.address + 64 + 256 * b.recordSlot
  [.write (record + 0xF0) (leBytes 2 b.delivered ++ leBytes 2 b.outOfSort ++ leBytes 2 b.failed ++
      leBytes 2 b.withdrawn),
   .write (record + 0xFC) (leBytes 4 closeSerial.toNat),
   .write (record + 0xF8) (leBytes 1 state.code)]

/-- The writes of NOT_PRODUCED for a record never fed, in their order (R43): attempts 0, no fault and no
station, no bypassed station, no flag; pocket serial 0; the outcome code; the page's final count. -/
def neverFedWrites (page : Address) (recordSlot final : Nat) : List Message :=
  let record := page + 64 + 256 * recordSlot
  [.write (record + 0xE1) [0, 0, 255, 0, 0, 0], .write (record + 0xE8) [0, 0, 0, 0],
   .write (record + 0xE0) [4], .write (page + 0x14) (leBytes 2 final)]

/-- The writes that a list of records due an outcome makes, each given by the entry of its page as it stands
at its turn: every outcome raises the final count of its page by 1 (R43). -/
def outcomesInTurn : List OpenPage → List (Nat × (OpenPage → List Message)) → List Message
  | _, [] => []
  | pages, (slot, writes) :: rest =>
    match pages.find? fun q => q.slot == slot with
    | none => outcomesInTurn pages rest
    | some q => writes q ++ outcomesInTurn
        (pages.map fun r => if r.slot = slot then { r with final := r.final + 1 } else r) rest

/-- What ABORT_JOB writes into the outcome halves, in order (R46, steps 1 and 2): NOT_PRODUCED for every
staged record, then for every fed record that is still PENDING, from its context. -/
def abortOutcomes (s : State) : List Message :=
  outcomesInTurn s.fetcher.pages
    (s.staging.map (fun r => (r.pageSlot, fun q =>
        neverFedWrites q.address r.recordSlot (q.final + 1))) ++
      (pendingContexts s).map fun c => (c.pageSlot, fun q =>
        outcomeWrites q c c.lastPocket .notProduced))

/-- The ABORTED reports of ABORT_JOB in opening order, then CLOSED for the open pages in their order and for
a skipped page (R46, steps 3 and 4; R166). -/
def abortReports (s : State) : List Message :=
  (s.bundles.flatMap fun b => match pageAt b.pageSlot s with
    | none => []
    | some q => reportWrites q b 0 .aborted) ++
  (s.fetcher.pages.map fun q => .write (q.address + 0x10) (leBytes 1 2)) ++
  (s.fetcher.skipped.toList.map fun a => .write (a.1 + 0x10) (leBytes 1 2))

/-! ## Invariants -/

/-- Run enable is on in RUNNING and DRAINING and nowhere else, quick stop is on in HALTED and nowhere
else, and a drain kind is present in DRAINING and nowhere else (R168). -/
def LineConsistent (s : State) : Prop :=
  (s.line.runEnable = true ↔ s.line.state = .running ∨ s.line.state = .draining) ∧
  (s.line.quickStop = true ↔ s.line.state = .halted) ∧
  (s.line.drain.isSome = true ↔ s.line.state = .draining)

/-- At most one head is ACTIVE (R104). -/
def OneHeadActive (s : State) : Prop :=
  ¬ (s.print.headA.state = .active ∧ s.print.headB.state = .active)

/-- A profile is held just while a job is loaded, and it has passed every check (R169, R170). -/
def ProfileLoaded (s : State) : Prop :=
  match s.profile with
  | none => s.line.state = .idle
  | some p => s.line.state ≠ .idle ∧ p.firstFailure = none

/-- The counts stand within the ranges their rules give: the accumulator 0 to CPP − 1 (R2), the deficit
to 65535 (R3), the film count to 65535 either way (R123), the out-of-window run to 15 (R126), the
purge counts to 2 and the NOREAD runs to 15 (R104), the consecutive counts to 15 (R74), the verify
window to 8 results (R120), the tail-window counter to 255 (R56), the zeros to 65520 (R87). -/
def CountsInRange (s : State) : Prop :=
  (∀ p, s.profile = some p → s.track.accumulator < p.cpp) ∧
  s.track.deficit ≤ 65535 ∧ s.wrap.film.natAbs ≤ 65535 ∧ s.wrap.run ≤ 15 ∧
  (s.print.headA.purges ≤ 2 ∧ s.print.headA.run ≤ 15) ∧
  (s.print.headB.purges ≤ 2 ∧ s.print.headB.run ≤ 15) ∧
  (∀ n : Fin 12, (s.stations.get n).misses ≤ 15 ∧ (s.stations.get n).doubles ≤ 15) ∧
  s.print.window.length ≤ 8 ∧ (∀ n, s.intake.window = some n → n ≤ 255) ∧
  s.gauge.z16 ≤ 65520 ∧ s.gauge.zRef ≤ 65520

/-- The track holds one pocket at each position while a job is loaded, and none with no job loaded
(R6). -/
def TrackFull (s : State) : Prop :=
  match s.profile with
  | none => ∀ i : Fin 128, s.track.entries.get i = none
  | some p => s.track.base < p.trackLen ∧
      ∀ i : Fin 128, (s.track.entries.get i).isSome = decide (i.val < p.trackLen)

/-- The hold-cause set holds just the causes whose conditions hold (R63). -/
def HoldsCurrent (s : State) : Prop := s.intake.holds = holdsNow s

/-- While ENABLE is clear the line is IDLE and no request is in progress (R191). -/
def DisabledIsIdle (s : State) : Prop :=
  s.link.enable = false → s.line.state = .idle ∧ s.request = none

/-- Every page the fetcher knows of lies in the window of the loaded profile (R25, R29, R31): the page the
chain begins with or goes on from, the page being fetched and the page held, each with its records
where they may be read or written; the open pages with all their records; the skipped page. -/
def PagesInWindow (s : State) : Prop :=
  ∀ p, s.profile = some p →
    (∀ q ∈ s.fetcher.pages, pageAddressOk p.windowBase p.windowLimit q.address = true ∧
      q.address + 64 + 256 * q.count ≤ p.windowLimit) ∧
    (∀ f, s.fetcher.fetch = some f → pageAddressOk p.windowBase p.windowLimit f.address = true ∧
      ∀ h, f.header = some h → f.address + 64 + 256 * h.count ≤ p.windowLimit) ∧
    (∀ h, s.fetcher.held = some h → pageAddressOk p.windowBase p.windowLimit h.address = true ∧
      (h.cause.ofRecord = true → h.address + 64 + 256 * h.count ≤ p.windowLimit)) ∧
    (∀ a q, s.fetcher.skipped = some (a, q) →
      pageAddressOk p.windowBase p.windowLimit a = true) ∧
    (∀ a, s.fetcher.source = .page a ∨ s.fetcher.source = .first a →
      pageAddressOk p.windowBase p.windowLimit a = true)

/-- The contexts of a bundle whose sort class is IN_SORT: its fed subscribers that are not resolved (R155,
R159). -/
def inSortContexts (ordinal : Nat) (s : State) : Nat :=
  s.contexts.toList.countP fun e =>
    e.any fun c => decide (c.ordinal = ordinal) && decide (c.sort = .inSort)

/-- The staged records of a bundle (R37). -/
def stagedRecords (ordinal : Nat) (s : State) : Nat :=
  s.staging.countP fun r => decide (r.ordinal = ordinal)

/-- The records of a bundle that may still be accepted: those of the tail bundle not yet read, and none in
orphan mode (R33, R42). -/
def unreadRecords (ordinal : Nat) (s : State) : Nat :=
  if s.fetcher.orphan then 0
  else match s.fetcher.tail with
    | none => 0
    | some t => if t.ordinal = ordinal then t.size - t.read else 0

/-- Every record of every bundle is accounted for once. In an open bundle the fed subscribers are those
delivered, out of sort, failed, or in an IN_SORT context; with the withdrawn, the staged and the unread
records they come to no more than its size (R54, R158, R159), and a DONE_WAITING bundle is resolved
(R160). A bundle still to open has its records staged, unread or withdrawn alone, and its opening record
first (R37, R53). Ordinals are given once (R35). -/
def BundleAccounts (s : State) : Prop :=
  (s.bundles.map Bundle.ordinal).Nodup ∧
  (∀ b ∈ s.bundles, b.ordinal < s.fetcher.nextOrdinal ∧
    b.delivered + b.outOfSort + b.failed + inSortContexts b.ordinal s = b.fed ∧
    b.fed + b.withdrawn + stagedRecords b.ordinal s + unreadRecords b.ordinal s ≤ b.size ∧
    (b.state = .doneWaiting → b.resolved = b.size)) ∧
  (∀ r ∈ s.staging, r.ordinal < s.fetcher.nextOrdinal ∧
    (1 ≤ r.size → (∀ b ∈ s.bundles, b.ordinal ≠ r.ordinal) ∧
      (∀ e ∈ s.contexts.toList, ∀ c ∈ e, c.ordinal ≠ r.ordinal) ∧
      r.withdrawn + stagedRecords r.ordinal s + unreadRecords r.ordinal s ≤ r.size)) ∧
  s.staging.Pairwise (fun q r => 1 ≤ r.size → q.ordinal ≠ r.ordinal) ∧
  (∀ e ∈ s.contexts.toList, ∀ c ∈ e, c.ordinal < s.fetcher.nextOrdinal) ∧
  (∀ t ∈ s.fetcher.tail, t.ordinal < s.fetcher.nextOrdinal)

/-- A stacker command is held only while a pulse is in progress (R164). -/
def HeldBehindAPulse (s : State) : Prop := s.stacker.pulse = none → s.stacker.held = []

/-- The Open Page List and the Staging Queue keep to their places: at most 16 pages, each in a slot of its own
from 0 to 15, and one page at most in the tail role (R38, R45); at most 64 staged records (R37). In the fetch
states from which a page may come to be accepted, one slot and the places of 32 records are free (R27, R31). A
page is being fetched in FETCHING alone, with no link word being read; one link word is read at a time
(log 12), and in PAGE_HELD and LINK_REFUSED only by a RETRY_PAGE (R40). -/
def PagesHaveRoom (s : State) : Prop :=
  let f := s.fetcher
  let held := f.state = .pageHeld ∨ f.state = .linkRefused
  (f.pages.map OpenPage.slot).Nodup ∧ (∀ q ∈ f.pages, q.slot < 16) ∧ f.pages.length ≤ 16 ∧
  (∀ q ∈ f.pages, ∀ r ∈ f.pages, q.tailRole = true → r.tailRole = true → q.slot = r.slot) ∧
  s.staging.length ≤ 64 ∧
  (f.state = .fetching ∨ held → f.pages.length < 16 ∧ s.staging.length ≤ 32) ∧
  (∀ g ∈ f.fetch, f.state = .fetching ∧ .linkWord ∉ s.link.outstanding ∧
    ∀ h ∈ g.header, h.count ≤ 32) ∧
  s.link.outstanding.count .linkWord ≤ 1 ∧
  (held → .linkWord ∈ s.link.outstanding → retryingLink s = true) ∧
  (retryingLink s = true → held)

/-- The anchor address is a multiple of 4096 (R24). -/
def AnchorAligned (s : State) : Prop := controlBlock s % 4096 = 0

end Sys2Proof.Machine
end

