-- ==== Sys2Proof/Certificates/Slice0/Obligations.lean ====
section
/-! DEFINITION. The statements for the provers. Each docstring names the rules a statement formalises; a
statement that rests on a choice of the model names its log entry. -/

open Sys2Proof Sys2Proof.Machine

/-! ## The queue, the reset and the registers -/

/-- The command at the front of the queue is carried out on the state with the rest of the queue, and an
empty queue leaves the block as it is. The queue is the model's choice (log 1). -/
def Obligations.StepRunsTheFrontCommand : Prop :=
  (∀ (c : Instr) (s : State), step { s with pending := c :: s.pending } = exec c s) ∧
  (∀ s : State, s.pending = [] → step s = .next s)

/-- Every command answers with a next state and leaves the commands behind it as they are: the block has
no command that stops it (log 1). The three input lines change by their own commands only (R165, R177).
ENABLE, the mask and the anchor registers change by register writes and resets only (R24, R187, R191);
the interrupt address by its own command and POWER_ON, and the level of the link by its own commands
(log 10). -/
def Obligations.EveryCommandAnswers : Prop :=
  ∀ (c : Instr) (s : State), ∃ t, exec c s = .next t ∧ t.pending = s.pending ∧
    ((∀ b, c ≠ .guardChange b) → t.inputs.guardClosed = s.inputs.guardClosed) ∧
    ((∀ b, c ≠ .driveReadyChange b) → t.inputs.driveReady = s.inputs.driveReady) ∧
    ((∀ b, c ≠ .stackerReadyChange b) → t.inputs.stackerReady = s.inputs.stackerReady) ∧
    ((c ≠ .powerOn ∧ (∀ b, c ≠ .softReset b) ∧ ∀ o v, c ≠ .registerWrite o v) →
      ((∀ b, c ≠ .enable b) → t.link.enable = s.link.enable) ∧
      t.link.mask = s.link.mask ∧
      ((∀ b v, c ≠ .anchorWrite b v) →
        t.link.anchorLow = s.link.anchorLow ∧ t.link.anchorHigh = s.link.anchorHigh)) ∧
    (c ≠ .powerOn → (∀ a, c ≠ .interruptAddressConfig a) →
      t.link.interruptAddress = s.link.interruptAddress) ∧
    (c ≠ .pcieLinkActive → c ≠ .pcieLinkInactive → t.link.active = s.link.active)

/-- The values right after power-on that the rules give (R22, R24, R27, R66, R70, R87, R104, R131, R134,
R153, R168, R189), and POWER_ON and SOFT_RESET returning every block to them (R192). The levels of the
inputs and of the link are the model's choice (log 9) and are not stated of State.reset; POWER_ON leaves
the levels that stand outside the part (log 9, log 10); SOFT_RESET keeps the configuration of the PCIe
link, discards what waits, and waits for no read that was outstanding (log 6). -/
def Obligations.ResetsReturnEveryBlock : Prop :=
  (let s := State.reset;
     (s.link.enable = false ∧ s.link.attention = 0 ∧ s.link.mask = 0 ∧ controlBlock s = 0) ∧
     (s.track.base = 0 ∧ s.track.nextSerial = 0 ∧ s.track.accumulator = 0 ∧ s.track.deficit = 0 ∧
       ∀ i, s.track.pocketAt i = none) ∧
     (s.fetcher.state = .off ∧ s.fetcher.pages = [] ∧ s.staging = [] ∧ ∀ i, contextAt i s = none) ∧
     (s.intake.holds.code = 0 ∧ s.intake.window = none) ∧
     (∀ n : Fin 12, let e := s.stations.get n
       e.state = .offline ∧ e.misses = 0 ∧ e.doubles = 0 ∧ e.cause = none ∧ e.lastState = none ∧
       e.timer = false) ∧
     (s.gauge.state = .off ∧ s.gauge.z16 = 0 ∧ s.gauge.zRef = 0) ∧
     (∀ h, let e := s.headEntry h
       e.state = .off ∧ e.purges = 0 ∧ e.countdown = 0 ∧ e.run = 0) ∧
     (s.print.readBacks = [] ∧ s.print.window = []) ∧
     (s.wrap.film = 0 ∧ s.wrap.run = 0 ∧ s.wrap.runaway = false ∧ s.wrap.sealOk = false ∧
       s.wrap.timer = false) ∧
     (s.remakes = [] ∧ s.gate = .pass ∧ s.profile = none ∧ s.bundles = [] ∧ s.stacker.pulse = none ∧
       s.stacker.held = []) ∧
     (s.line.state = .idle ∧ s.line.drain = none ∧ s.line.stop = .none ∧ s.line.halt = .none ∧
       s.line.fileExhausted = false ∧ s.line.runEnable = false ∧ s.line.quickStop = false) ∧
     (∀ i, s.counters.total.get i = 0 ∧ s.counters.interval.get i = 0) ∧
     (∀ i, s.counters.stationTotal.get i = 0 ∧ s.counters.stationInterval.get i = 0) ∧
     s.request = none) ∧
  (∀ (s : State) (bit : Bool),
       (∃ t, exec .powerOn s = .next t ∧
         t = { State.reset with
           pending := s.pending, inputs := s.inputs, sent := s.sent, freeCount := s.freeCount,
           link := { State.reset.link with active := s.link.active } }) ∧
       (∃ t, exec (.softReset bit) s = .next t ∧
         t = { State.reset with
           pending := s.pending, inputs := s.inputs, sent := s.sent, freeCount := s.freeCount,
           link := { State.reset.link with
             active := s.link.active, interruptAddress := s.link.interruptAddress } }))

/-- CONTROL's ENABLE bit and the anchor registers (R24, R191): ENABLE is set at any time, and cleared in
IDLE while no request is in progress; an anchor write is taken in IDLE with ENABLE clear, and the low
12 bits stay 0. A write to ATTENTION clears each bit written as 1 and leaves the others (R186); a write
to ATTENTION_MASK stores the bits of the twelve causes and sends nothing (R187); ID and the offsets
above the six registers take no write (R191). Nothing else changes.
A bit of ATTENTION going from clear to set sends one interrupt message, counted in INTERRUPTS, while it is
masked in, the PCIe link is active and an interrupt address is configured; else it sends none. A bit already
set stays set and sends none. No other bit changes (R186, R187). -/
def Obligations.RegistersAndAttention : Prop :=
  (∀ (s : State) (bit high : Bool) (v o : Word),
    (∃ t, exec (.enable bit) s = .next t ∧
      t = { s with link := { s.link with enable := t.link.enable } } ∧
      (bit = true → t.link.enable = true) ∧
      (bit = false → s.line.state = .idle → s.request = none → t.link.enable = false) ∧
      (bit = false → (s.line.state ≠ .idle ∨ s.request ≠ none) →
        t.link.enable = s.link.enable)) ∧
    (∃ t, exec (.anchorWrite high v) s = .next t ∧
      t = { s with link := { s.link with
        anchorLow := t.link.anchorLow, anchorHigh := t.link.anchorHigh } } ∧
      ((s.line.state ≠ .idle ∨ s.link.enable = true) → t = s) ∧
      (s.line.state = .idle → s.link.enable = false → high = true →
        t.link.anchorHigh = v ∧ t.link.anchorLow = s.link.anchorLow) ∧
      (s.line.state = .idle → s.link.enable = false → high = false →
        t.link.anchorHigh = s.link.anchorHigh ∧
        ∀ i < 32, t.link.anchorLow.getLsbD i = (v.getLsbD i && decide (12 ≤ i))) ∧
      (AnchorAligned s → AnchorAligned t)) ∧
    (∃ t, exec (.attentionClear v) s = .next t ∧
      t = { s with link := { s.link with attention := t.link.attention } } ∧
      ∀ i < 12, t.link.attention.getLsbD i = (s.link.attention.getLsbD i && !v.getLsbD i)) ∧
    (∃ t, exec (.registerWrite 0x0C v) s = .next t ∧
      t = { s with link := { s.link with mask := t.link.mask } } ∧
      ∀ i < 12, t.link.mask.getLsbD i = v.getLsbD i) ∧
    (o = 0 ∨ 0x18 ≤ o.toNat → exec (.registerWrite o v) s = .next s)) ∧
  (∀ (c : Attention) (s : State),
    let t := setAttentionBit c s
    SameButLink t s ∧
    (∀ d : Attention, t.link.attention.getLsbD d.bit =
      (s.link.attention.getLsbD d.bit || decide (d = c))) ∧
    (s.link.attention.getLsbD c.bit = true → t = s) ∧
    (∀ a, s.link.attention.getLsbD c.bit = false → s.link.mask.getLsbD c.bit = true →
      s.link.active = true → s.link.interruptAddress = some a →
        t.sent = s.sent ++ [.interrupt a c] ∧ Counted .interrupts s t ∧
        OnlyCounted [.interrupts] s t) ∧
    ((s.link.mask.getLsbD c.bit = false ∨ s.link.active = false ∨
        s.link.interruptAddress = none) → t.sent = s.sent ∧ t.counters = s.counters))

/-! ## What every step keeps -/

/-- The invariants hold right after power-on (R6, R24, R37, R38, R63, R104, R159, R164, R168, R191). -/
def Obligations.ResetMeetsTheInvariants : Prop :=
  LineConsistent State.reset ∧ OneHeadActive State.reset ∧ ProfileLoaded State.reset ∧
  TrackFull State.reset ∧ CountsInRange State.reset ∧ HoldsCurrent State.reset ∧
  PagesInWindow State.reset ∧ DisabledIsIdle State.reset ∧ AnchorAligned State.reset ∧
  PagesHaveRoom State.reset ∧ BundleAccounts State.reset ∧ HeldBehindAPulse State.reset

/-- Run enable is on in RUNNING and DRAINING and off in every other state, quick stop is on in HALTED and
off in every other, and a drain kind is present in DRAINING and absent in every other (R168, R173 to
R176, R178, R180). The line is IDLE, with no request in progress, whenever ENABLE is clear (R191). The
anchor address is a multiple of 4096 (R24). Every step keeps each of the three. -/
def Obligations.EveryStepKeepsTheLineConsistent : Prop :=
  ∀ s t : State, step s = .next t →
    (LineConsistent s → LineConsistent t) ∧ (DisabledIsIdle s → DisabledIsIdle t) ∧
    (AnchorAligned s → AnchorAligned t)

/-- At most one head is ACTIVE (R104, R106, R113, R115, R118, R119), and the hold-cause set holds just the causes
whose conditions hold (R63): every step keeps each of the two. -/
def Obligations.EveryStepKeepsHeadsAndHolds : Prop :=
  ∀ s t : State, step s = .next t →
    (OneHeadActive s → OneHeadActive t) ∧ (HoldsCurrent s → HoldsCurrent t)

/-- A profile is held just while a job is loaded and has passed every check, the track holds one pocket at
each position of it, and every count stands in its range: every step keeps this (R2, R3, R6, R56, R74,
R87, R97, R104, R114, R120, R123, R126, R169, R170). -/
def Obligations.EveryStepKeepsTheJobInRange : Prop :=
  ∀ s t : State, ProfileLoaded s → TrackFull s → CountsInRange s → step s = .next t →
    ProfileLoaded t ∧ TrackFull t ∧ CountsInRange t

/-- Every page the fetcher knows of lies in the window of the loaded profile (R25, R29, R31); the Open Page List
holds at most 16 pages, each in a slot of its own, one of them at most in the tail role, and the Staging
Queue at most 64 records (R27, R37, R38, R45): every step keeps each of the two. That one link word is read
at a time is the model's reading (log 12). -/
def Obligations.EveryStepKeepsThePagesInTheWindow : Prop :=
  ∀ s t : State, step s = .next t →
    (ProfileLoaded s → PagesInWindow s → PagesInWindow t) ∧ (PagesHaveRoom s → PagesHaveRoom t)

/-- Every record of every bundle stays accounted for once (R35, R37, R54, R155, R157, R158), so that the
delivered, out-of-sort, failed and withdrawn counts of an open bundle together never exceed its size
(R159); and a stacker command is held only while a pulse is in progress (R164): every step keeps each of
the two. -/
def Obligations.EveryStepKeepsTheBundleAccounts : Prop :=
  ∀ s t : State, step s = .next t →
    (BundleAccounts s → BundleAccounts t ∧ ∀ b ∈ t.bundles,
      b.delivered + b.outOfSort + b.failed + b.withdrawn ≤ b.size) ∧
    (HeldBehindAPulse s → HeldBehindAPulse t)

/-- What the part has sent is never taken back, and while host memory access goes on with ENABLE set and the
link active, each field of the status section follows the value it mirrors (R188): a command after which the
value differs has written the new one into its field. So do the line state, the stop and the halt cause,
with the job totals at a change of line state (R168); the fetch state (R27); the hold causes (R63); the
gauge and its zeros (R102); the seal (R133); the heads (R104); the stations (R67); the page counts and the
last closed sequence (R35, R45); the held page sequence (R34), the refused link address (R29), and the
snapshot sequence. While ENABLE is clear or access has stopped, nothing is written, what waited by then
apart (R26, log 22). LOAD_JOB writes the section in full, once job state is initialised, before anything
else is sent; the order of its fields is the model's (log 29). -/
def Obligations.StatusFieldsFollowTheState : Prop :=
  (∀ (c : Instr) (s t : State), exec c s = .next t →
    s.sent <+: t.sent ∧
    (LinkOpen s → LinkOpen t →
      FieldFollows 0x200 1 (fun u => u.line.state.code) s t ∧
      FieldFollows 0x201 1 (fun u => u.line.stop.code) s t ∧
      FieldFollows 0x202 1 (fun u => u.line.halt.code) s t ∧
      (t.line.state ≠ s.line.state → TotalsWritten s t) ∧
      FieldFollows 0x203 1 (fun u => u.fetcher.state.code) s t ∧
      FieldFollows 0x204 1 (fun u => u.intake.holds.code) s t ∧
      FieldFollows 0x205 1 (fun u => u.gauge.state.code) s t ∧
      FieldFollows 0x206 1 (fun u => if u.wrap.sealOk then 1 else 0) s t ∧
      FieldFollows 0x208 1 (fun u => u.print.headA.state.code) s t ∧
      FieldFollows 0x209 1 (fun u => u.print.headB.state.code) s t ∧
      FieldFollows 0x20C 2 (fun u => u.gauge.z16) s t ∧
      FieldFollows 0x20E 2 (fun u => u.gauge.zRef) s t ∧
      (∀ n : Fin 12, FieldFollows (0x210 + n.val) 1 (fun u => (u.stations.get n).state.code) s t) ∧
      FieldFollows 0x220 2 (fun u => u.fetcher.pages.length) s t ∧
      FieldFollows 0x224 4 (fun u => u.fetcher.closedCount) s t ∧
      FieldFollows 0x228 4 (fun u => u.fetcher.lastClosed) s t ∧
      FieldFollows 0x22C 4 (fun u => u.fetcher.heldShown) s t ∧
      FieldFollows 0x230 8 (fun u => u.fetcher.refusedShown) s t ∧
      FieldFollows 0x400 4 (fun u => u.counters.snapshots.toNat) s t) ∧
    (s.link.waiting = [] → s.link.enable = false → NothingWritten s t) ∧
    (s.link.waiting = [] → s.fetcher.state = .linkDown → s.link.outstanding = [] →
      NothingWritten s t)) ∧
  (∀ (r : Request) (data : List Byte) (s : State), s.request = some r →
    r.phase = .readingProfile → .profile ∈ s.link.outstanding → LinkOpen s →
    let p := parseProfile data
    let field := fun (offset : Nat) (bytes : List Byte) =>
      Message.write (controlBlock s + offset) bytes
    p.firstFailure = none →
    ∃ t, exec (.profileReadDone ⟨.awaited, data⟩) s = .next t ∧ ∃ more, t.sent = s.sent ++
      [field 0x201 [0], field 0x202 [0], field 0x200 [1], field 0x203 [1], field 0x204 [3],
       field 0x206 [0],
       field 0x208 (leBytes 1 (if p.headFitted .a then 1 else 0) ++
         leBytes 1 (if p.headFitted .b then 1 else 0)),
       field 0x20C (leBytes 2 (16 * p.initialZero)), field 0x20E (leBytes 2 (16 * p.initialZero)),
       field 0x205 (leBytes 1 (if p.gaugeFitted = 1 then 1 else 0)),
       field 0x210 ((List.finRange 12).flatMap fun n =>
         leBytes 1 (if (p.stations.get n).isFitted then 1 else 0)),
       field 0x220 [0, 0], field 0x224 [0, 0, 0, 0], field 0x228 [0, 0, 0, 0],
       field 0x22C [0, 0, 0, 0], field 0x230 [0, 0, 0, 0, 0, 0, 0, 0],
       field 0x300 (List.replicate 256 0), field 0x640 (List.replicate 192 0),
       field 0x410 (List.replicate 256 0), field 0x510 (List.replicate 256 0),
       field 0x700 (List.replicate 192 0), field 0x7C0 (List.replicate 192 0),
       field 0x400 [0, 0, 0, 0]] ++ more)

/-! ## Counts and the track -/

/-- A forward count with the deficit at 0 adds 1 to the accumulator; at CPP the accumulator returns to 0
and one pitch event is raised (R2); with the deficit above 0 it repays 1 of it (R3). In IDLE it is
discarded (R1). A pitch event raised waits for its own command (log 3). -/
def Obligations.ForwardCountStepsTheAccumulator : Prop :=
  (∀ s : State, s.job = none → exec .forwardCount s = .next s) ∧
  (∀ (p : Profile) (s : State), s.job = some p →
    ∃ t, exec .forwardCount s = .next t ∧
      t = { s with track := { s.track with
        accumulator := t.track.accumulator, deficit := t.track.deficit, raised := t.track.raised } } ∧
      (0 < s.track.deficit → t.track.deficit + 1 = s.track.deficit ∧
        t.track.accumulator = s.track.accumulator ∧ t.track.raised = s.track.raised) ∧
      (s.track.deficit = 0 → s.track.accumulator + 1 < p.cpp → t.track.deficit = 0 ∧
        t.track.accumulator = s.track.accumulator + 1 ∧ t.track.raised = s.track.raised) ∧
      (s.track.deficit = 0 → p.cpp ≤ s.track.accumulator + 1 → t.track.deficit = 0 ∧
        t.track.accumulator = 0 ∧ t.track.raised = s.track.raised + 1))

/-- A reverse count adds 1 to the deficit up to 65535, leaves the accumulator, counts in REVERSE_COUNTS and
moves no pocket; while the deficit is above 0 a forward count takes 1 from it and nothing else moves, so
no pitch event is raised before the whole is repaid (R3). -/
def Obligations.ReverseCountAddsToTheDeficit : Prop :=
  ∀ (p : Profile) (s : State), s.job = some p →
    (∃ t, exec .reverseCount s = .next t ∧
      t.track.deficit = (if s.track.deficit < 65535 then s.track.deficit + 1
        else s.track.deficit) ∧
      t.track.accumulator = s.track.accumulator ∧ t.track.raised = s.track.raised ∧
      t.track.base = s.track.base ∧ t.track.nextSerial = s.track.nextSerial ∧
      SamePockets s t ∧ Counted .reverseCounts s t) ∧
    (0 < s.track.deficit → ∃ t, exec .forwardCount s = .next t ∧
      t = { s with track := { s.track with deficit := s.track.deficit - 1 } })

/-- A reverse count that takes the deficit from at or below CPP/2 to above it halts a line that takes a halt
cause, with cause REVERSE, quick stop and SUSPECT marking (R4, R176); any other reverse count changes the
deficit and REVERSE_COUNTS alone (R3). Neither the halt nor CLEAR_HALT clears the deficit: forward counts
repay it, and raise no pitch event before (R3, R4). In IDLE the count is discarded (R1). That a line with an
ABORT_JOB in progress takes no halt cause is read from R180 (log 18). -/
def Obligations.ReverseCrossingHalts : Prop :=
  (∀ s : State, s.job = none → exec .reverseCount s = .next s) ∧
  (∀ (p : Profile) (s : State), s.job = some p → ∃ t, exec .reverseCount s = .next t ∧
    (2 * s.track.deficit ≤ p.cpp → p.cpp < 2 * (s.track.deficit + 1) → s.track.deficit < 65535 →
      TakesHalt s → Halted .reverse s t ∧ t.track.deficit = s.track.deficit + 1 ∧
      (s.track.base < p.trackLen → p.trackLen ≤ 128 → ∀ n < p.rejectPos, ∀ k,
        t.track.pocketAt ((t.track.base + n) % p.trackLen) = some k → k.state ≠ .live) ∧
      SameButHalted t s) ∧
    ((p.cpp < 2 * s.track.deficit ∨ 2 * (s.track.deficit + 1) ≤ p.cpp ∨
        65535 ≤ s.track.deficit ∨ ¬ TakesHalt s) →
      t = { s with track := { s.track with deficit := t.track.deficit }, counters := t.counters } ∧
      OnlyCounted [.reverseCounts] s t)) ∧
  (∀ s t : State, exec .clearHalt s = .next t → t.track = s.track) ∧
  (∀ (p : Profile) (s : State), s.job = some p → 0 < s.track.deficit →
    ∃ t, exec .forwardCount s = .next t ∧ t.track.deficit + 1 = s.track.deficit ∧
      t.track.raised = s.track.raised ∧ t.track.accumulator = s.track.accumulator)

/-- A pitch event that the Track has raised steps base back by one, fills position 0 with the next serial,
moves no other record, counts in PITCHES, and begins a new film count with the runaway mark clear (R2,
R7, R8, R124). The encoder's counts stay. With none raised, and in IDLE, there is none to take (log
3). From the table so stepped, position 0 still without a record, the event takes each of its parts once, in
the order asked for, which R17 and R61 leave open (log 4): the fill with the update of the tail-window
counter and its expiry test (R47, R56, R59), the arrival at each station's position, at PRINT, VERIFY, GAUGE,
SEAL with the film judgement, REJECT and the last position (R15), and the spit of each head (R115). The
arrivals that look at the pocket as the event brought it look at that table (R91, R107, R110, R125), and
the gauge reads the analog input as R89 converts it. The test of an operator drain follows (R174), then what
the fetcher does at once (log 51). An order that is not well formed is read as one that is: each part where it
is first named, those not named behind (log 4). -/
def Obligations.PitchEventStepsTheTrack : Prop :=
  (∀ (input : Int) (order : List PitchPart) (s : State),
    ((s.job = none ∨ s.track.raised = 0) → exec (.pitchEvent input order) s = .next s) ∧
    (∀ p, s.job = some p → 0 < s.track.raised → s.track.base < p.trackLen → p.trackLen ≤ 128 →
      ∃ t, exec (.pitchEvent input order) s = .next t ∧ SameButPitch t s ∧
        t.track.raised + 1 = s.track.raised ∧ t.track.deficit = s.track.deficit ∧
        t.track.accumulator = s.track.accumulator ∧
        t.track.base < p.trackLen ∧ (t.track.base + 1) % p.trackLen = s.track.base ∧
        t.track.nextSerial = serialAfter s.track.nextSerial ∧
        (t.track.pocketAt t.track.base).map (·.serial) = some s.track.nextSerial ∧
        (∀ i, i ≠ t.track.base →
          (t.track.pocketAt i).map (·.serial) = (s.track.pocketAt i).map (·.serial)) ∧
        Counted .pitches s t ∧ t.wrap.film = 0 ∧ t.wrap.runaway = false ∧
        let u := bump .pitches (advanceTable p s)
        u = { s with track := u.track, counters := u.counters } ∧ u.track.base = t.track.base ∧
        u.track.nextSerial = s.track.nextSerial ∧
        (∀ i, u.track.pocketAt i = if i = t.track.base then none else s.track.pocketAt i) ∧
        t = settle (drainEndTest
          ((partOrder order).foldl (takePart p u.track (convert input).toNat) u)))) ∧
  (∀ (input : Int) (order : List PitchPart),
    (partOrder order).Nodup ∧ (∀ x : PitchPart, x ∈ partOrder order) ∧
    ((Instr.pitchEvent input order).wellFormed = true → partOrder order = order)) ∧
  (∀ (p : Profile) (snap : Track) (reading : Nat) (s : State),
    let part := takePart p snap reading s
    part .fill = expiryTest p (updateWindow (fillIntake p s).2 (fillIntake p s).1) ∧
    (∀ n, part (.station n) = stationArrival p n s) ∧
    part .print = printArrival p snap s ∧ part .verify = verifyArrival p snap s ∧
    part .gauge = gaugeArrival p snap reading s ∧ part .wrap = wrapPart p snap s ∧
    part .reject = rejectArrival p s ∧ part .last = lastArrival p s ∧
    ∀ h, part (.purge h) = spitHead h s)

/-- A pitch event in READY, PAUSED, HALTED or COMPLETE fills position 0 with a GAP, EMPTY and with no
subscriber, and takes nothing from the Staging Queue or the Remake List, whose entries keep their places
(R18, R48, R65). The line state and its causes stay. -/
def Obligations.CoastingPitchFillsAGap : Prop :=
  ∀ (input : Int) (order : List PitchPart) (p : Profile) (s : State),
    s.job = some p → 0 < s.track.raised → s.track.base < p.trackLen → p.trackLen ≤ 128 →
    s.line.state ≠ .running → s.line.state ≠ .draining →
    ∃ t, exec (.pitchEvent input order) s = .next t ∧
      (∃ k, t.track.pocketAt t.track.base = some k ∧ k.serial = s.track.nextSerial ∧
        k.kind = .gap ∧ k.state = .empty ∧ k.subscriber = none) ∧
      t.staging = s.staging ∧ (∃ made, t.remakes = s.remakes ++ made) ∧ t.line = s.line ∧
      Counted .gapsFed s t ∧ NotCounted .newFed s t ∧ NotCounted .remakesFed s t

/-! ## Intake -/

/-- The fill of a pitch event feeds the oldest entry of the Remake List where neither hold on all intake nor
an operator drain stands (R47, R50): a LIVE REMAKE pocket with the next serial, the attempts of its
context raised by 1, its flags cleared and its latest pocket this one (R8), the entry gone, REMAKES_FED
counted (R65). The pocket is an in-sort pocket of its bundle, for the tail-window counter of R56, where the
sort class of the entry is IN_SORT; an out-of-sort one is of no bundle. -/
def Obligations.IntakeFeedsTheOldestRemake : Prop :=
  ∀ (p : Profile) (s : State) (r : Remake) (rest : List Remake) (c : Context),
    s.job = some p → s.track.base < p.trackLen → p.trackLen ≤ 128 →
    (s.line.state = .running ∨ s.line.state = .draining) → s.line.drain ≠ some .operator →
    headActive s = true → s.remakes = r :: rest → contextAt r.context s = some c →
    (fillIntake p s).2 = (if r.sort = .inSort then some r.ordinal else none) ∧
    let t := (fillIntake p s).1
    t.remakes = rest ∧ t.staging = s.staging ∧
    (∃ k, t.track.pocketAt s.track.base = some k ∧ k.serial = s.track.nextSerial ∧
      k.kind = .remake ∧ k.state = .live ∧ k.attempt = some r.attempt ∧ k.sort = some r.sort ∧
      k.subscriber = some { context := r.context, serial := r.serial } ∧ k.fault = none) ∧
    t.track.nextSerial = serialAfter s.track.nextSerial ∧
    contextAt r.context t = some { c with
      attempts := c.attempts + 1, lastPocket := s.track.nextSerial, bypassed := 0,
      gaugeSkipped := false, verifyCorrected := false } ∧
    (∀ j, j ≠ r.context → contextAt j t = contextAt j s) ∧
    Counted .remakesFed s t ∧ OnlyCounted [.remakesFed] s t ∧ SameButPieces t s ∧
    t.line = s.line ∧ t.bundles = s.bundles ∧ t.intake = s.intake ∧ t.fetcher = s.fetcher

/-- The fill of a pitch event feeds the front record of the Staging Queue as a NEW pocket where no hold cause
stands, no drain and no remake waits (R47, R52, R53): the record leaves the queue, its context is
made, its bundle opens if its size is 1 or above (R54), its bundle's fed originals rise by 1 with the
TAILING test (R55), the pocket is LIVE with the next serial, NEW_FED is counted (R65), and the file is
exhausted if this was the last record and END was seen (R36). The hold-cause set is current after the
feed, and starvation begins at a feed of the last staged record of a RUNNING line, also where END was
seen (R63, R64). The pocket is an in-sort pocket of its bundle (R56).
Where the line or the heads hold all intake, in an operator drain, and where no remake waits and no record may
be fed, a GAP is filled instead (R47, R48, R49): EMPTY, with the next serial, of no bundle for R56; nothing
else changes but GAPS_FED, and STARVED_GAPS where a RUNNING line with a head ACTIVE has nothing to feed (R65). -/
def Obligations.IntakeFeedsTheFrontRecord : Prop :=
  (∀ (p : Profile) (s : State) (r : Staged) (rest : List Staged) (i : Nat),
    s.job = some p → s.track.base < p.trackLen → p.trackLen ≤ 128 →
    holdsNow s = .empty → s.remakes = [] → s.staging = r :: rest →
    freeContextEntry s = some i → (0 < r.size → ∀ b ∈ s.bundles, b.ordinal ≠ r.ordinal) →
    (fillIntake p s).2 = some r.ordinal ∧
    let t := (fillIntake p s).1
    t.staging = rest ∧ t.remakes = [] ∧
    (∃ k, t.track.pocketAt s.track.base = some k ∧ k.serial = s.track.nextSerial ∧
      k.kind = .new ∧ k.state = .live ∧ k.attempt = some 1 ∧ k.sort = some .inSort ∧
      k.subscriber = some { context := i, serial := r.serial } ∧ k.fault = none) ∧
    t.track.nextSerial = serialAfter s.track.nextSerial ∧
    (∃ c, contextAt i t = some c ∧ c.pageSlot = r.pageSlot ∧ c.recordSlot = r.recordSlot ∧
      c.serial = r.serial ∧ c.ordinal = r.ordinal ∧ c.selection = r.selection ∧
      c.lines = r.lines ∧ c.checkValue = r.checkValue ∧ c.attempts = 1 ∧
      c.lastPocket = s.track.nextSerial ∧ c.sort = .inSort ∧ c.lastFault = none ∧ c.bypassed = 0 ∧
      c.gaugeSkipped = false ∧ c.verifyCorrected = false) ∧
    t.intake.holds = holdsNow t ∧
    (rest = [] → s.line.state = .running → s.intake.holds.starved = false → LinkOpen s →
      t.link.attention.getLsbD 8 = true) ∧
    (0 < r.size → t.intake.window = some 0 ∧ Counted .bundlesOpened s t ∧
      ∃ b, t.bundles = s.bundles ++ [b] ∧ b.ordinal = r.ordinal ∧ b.size = r.size ∧ b.fed = 1 ∧
        b.withdrawn = r.withdrawn ∧ b.broken = r.broken ∧ b.trayEnd = r.trayEnd ∧
        b.delivered = 0 ∧ b.outOfSort = 0 ∧ b.failed = 0 ∧
        (b.state = .tailing ↔ 1 + r.withdrawn = r.size) ∧
        (b.state = .feeding ↔ 1 + r.withdrawn ≠ r.size)) ∧
    (r.size = 0 → t.intake.window = s.intake.window ∧ NotCounted .bundlesOpened s t ∧
      t.bundles = s.bundles.map fun b => if b.ordinal = r.ordinal then
        { b with fed := b.fed + 1, state := if b.state = .feeding ∧ b.fed + 1 + b.withdrawn = b.size
            then .tailing else b.state } else b) ∧
    t.line.fileExhausted = (s.line.fileExhausted || (s.fetcher.endSeen && rest.isEmpty)) ∧
    Counted .newFed s t) ∧
  (∀ (p : Profile) (s : State), s.job = some p → s.track.base < p.trackLen → p.trackLen ≤ 128 →
    let h := holdsNow s
    (h.line = true ∨ h.noHead = true ∨ s.line.state = .draining ∧ s.line.drain = some .operator ∨
      s.remakes = [] ∧
        (s.staging = [] ∨ h.drain = true ∨ h.tableFull = true ∨ h.bundleTail = true)) →
    (fillIntake p s).2 = none ∧
    let t := (fillIntake p s).1
    t = { s with track := t.track, counters := t.counters } ∧
    (∃ k, t.track.pocketAt s.track.base = some k ∧ k.serial = s.track.nextSerial ∧
      k.kind = .gap ∧ k.state = .empty ∧ k.subscriber = none) ∧
    (∀ i, i ≠ s.track.base → t.track.pocketAt i = s.track.pocketAt i) ∧
    t.track.nextSerial = serialAfter s.track.nextSerial ∧ Counted .gapsFed s t ∧
    OnlyCounted [.gapsFed, .starvedGaps] s t ∧
    let nothing := s.line.state = .running ∧ headActive s = true ∧ s.remakes = [] ∧ s.staging = []
    (nothing → Counted .starvedGaps s t) ∧ (¬ nothing → NotCounted .starvedGaps s t))

/-- The counter of the window after a fill (R56): it becomes 0 for an in-sort pocket of the bundle in its
window, and else rises by 1 up to 255; with no bundle in its window it stays absent. A TAILING bundle's
window expires when its counter is at or above TAIL_GAPS and no in-sort remake of it waits: it leaves for
SETTLING, and the counter becomes absent (R57, R59). Else, with no bundle TAILING or no counter too, nothing
changes. The test that the fill makes and the command TAIL_WINDOW_EXPIRY do the same (log 2). -/
def Obligations.TailWindowExpiry : Prop :=
  (∀ (fed : Option Nat) (s : State),
       (∀ n b, s.intake.window = some n → windowBundle s = some b →
         updateWindow fed s = { s with intake := { s.intake with
           window := some (if fed = some b.ordinal then 0 else min 255 (n + 1)) } }) ∧
       ((s.intake.window = none ∨ windowBundle s = none) → updateWindow fed s = s)) ∧
  (∀ (p : Profile) (s : State) (b : Bundle) (n : Nat),
       s.job = some p → tailingBundle s = some b → s.intake.window = some n →
       ((p.tailGaps ≤ n ∧ ∀ r ∈ s.remakes, r.ordinal = b.ordinal → r.sort ≠ .inSort) →
         ∃ t, exec .tailWindowExpiry s = .next t ∧ t.intake.window = none ∧
           t.bundles = s.bundles.map (fun c =>
             if c.ordinal = b.ordinal then { c with state := .settling } else c) ∧
           SameButSettled { t with bundles := s.bundles } s ∧
           let u := expiryTest p s
           u.intake.window = none ∧ u.bundles = t.bundles ∧
             SameButSettled { u with bundles := s.bundles } s) ∧
       ((n < p.tailGaps ∨ ∃ r ∈ s.remakes, r.ordinal = b.ordinal ∧ r.sort = .inSort) →
         exec .tailWindowExpiry s = .next s ∧ expiryTest p s = s)) ∧
  (∀ s : State, (s.job = none ∨ tailingBundle s = none ∨ s.intake.window = none) →
    exec .tailWindowExpiry s = .next s ∧ ∀ p, s.job = some p → expiryTest p s = s)

/-- A head that is PURGING at its turn in a pitch event is sent exactly one SPIT in that event and its countdown
falls by 1; at 0 the purge ends: STANDBY, or ACTIVE at once if no head is ACTIVE, with HEAD_CHANGE (R115). A
head that is not PURGING is sent none and stays as it is. Where both purges end in one event with no head
ACTIVE, the one whose turn comes first becomes ACTIVE (the order is open: log 4). That its change to ACTIVE is
one change is the model's choice (log 46). PURGE_END does the same for a countdown at 0 and nothing else
otherwise (log 2). -/
def Obligations.PurgeEndReturnsTheHead : Prop :=
  ∀ (h : Head) (s : State),
    (∀ e : HeadEntry, s.headEntry h = e → e.state = .purging → e.countdown = 0 →
      ∃ t, exec (.purgeEnd h) s = .next t ∧
        t.headEntry h = { e with state := if headActive s then .standby else .active } ∧
        t.headEntry (otherHead h) = s.headEntry (otherHead h) ∧
        (LinkOpen s → t.link.attention.getLsbD 6 = true) ∧
        SameButSettled { t with print := s.print } s ∧ t.print.readBacks = s.print.readBacks ∧
        t.print.window = s.print.window) ∧
    (((s.headEntry h).state ≠ .purging ∨ (s.headEntry h).countdown ≠ 0) →
      exec (.purgeEnd h) s = .next s) ∧
    (∀ e : HeadEntry, s.headEntry h = e →
      let t := spitHead h s
      (e.state ≠ .purging → t = s) ∧
      (e.state = .purging →
        t.headEntry h = { e with
          countdown := e.countdown - 1,
          state := if 1 < e.countdown then .purging
            else if headActive s then .standby else .active } ∧
        t.headEntry (otherHead h) = s.headEntry (otherHead h) ∧
        (∃ more, t.sent = s.sent ++ [.spit h] ++ more ∧ ∀ d, .spit d ∉ more) ∧
        (1 < e.countdown → t.link = s.link) ∧
        (e.countdown ≤ 1 → LinkOpen s → t.link.attention.getLsbD 6 = true) ∧
        t.print.readBacks = s.print.readBacks ∧ t.print.window = s.print.window ∧
        SameButPrint t s)) ∧
    (∀ (input : Int) (order : List PitchPart) (p : Profile), s.job = some p → 0 < s.track.raised →
      ∃ t new, exec (.pitchEvent input order) s = .next t ∧ t.sent = s.sent ++ new ∧
        let e := s.headEntry h
        let o := s.headEntry (otherHead h)
        let otherReturned := decide (o.state = .purging) && decide (o.countdown ≤ 1) &&
          ((partOrder order).takeWhile fun x => decide (x ≠ .purge h)).contains
            (.purge (otherHead h))
        (e.state ≠ .purging → new.count (.spit h) = 0 ∧ t.headEntry h = e) ∧
        (e.state = .purging → new.count (.spit h) = 1 ∧
          t.headEntry h = { e with
            countdown := e.countdown - 1,
            state := if 1 < e.countdown then .purging
              else if headActive s || otherReturned then .standby else .active } ∧
          (e.countdown ≤ 1 → LinkOpen s → t.link.attention.getLsbD 6 = true)))

/-! ## The station loop, film and seal -/

/-- A PICK whose check fails, whose address is above 11, or that comes with no job loaded is discarded (R68).
A PICK that no pocket on the track awaits is STRAY: it restarts its station's silence timer (R69), counts
in STRAYS, and changes nothing else (R74, R76); an item that a FAULTED station left pending had no call,
so that no PICK answers it (R73, R76). A matched GOOD removes the station from its pocket's pending set,
clears the station's consecutive counts, restarts its timer and counts in its PICKS, and nothing else
changes (R69, R74, R86). -/
def Obligations.GoodAndStrayPicks : Prop :=
  (∀ (address : Byte) (tag : Tag) (result : PickResult) (s : State),
       (∀ ok, (12 ≤ address.toNat ∨ ok = false ∨ s.job = none) →
         exec (.pick address tag result ok) s = .next s) ∧
       (∀ (p : Profile) (n : Fin 12), s.job = some p → address.toNat = n.val →
         NoTag tag (fun k => StationSet.holds k.pend.stations n && StationSet.holds k.feed n) s →
         ∃ t, exec (.pick address tag result true) s = .next t ∧
           t = { s with
             stations := s.stations.set n.val { s.stations.get n with timer := true } n.isLt
             counters := { s.counters with
               stationTotal := t.counters.stationTotal
               stationInterval := t.counters.stationInterval } } ∧
           ∀ m k, t.counters.stationTotal.get (stationIndex m k) =
               (if m = n ∧ k = .strays then satIncr (s.counters.stationTotal.get (stationIndex m k))
                else s.counters.stationTotal.get (stationIndex m k)) ∧
             t.counters.stationInterval.get (stationIndex m k) =
               (if m = n ∧ k = .strays then satIncr (s.counters.stationInterval.get (stationIndex m k))
                else s.counters.stationInterval.get (stationIndex m k)))) ∧
  (∀ (p : Profile) (address : Byte) (tag : Tag) (n : Fin 12) (i : Nat) (k : Pocket) (s : State),
       s.job = some p → address.toNat = n.val → TagAt tag i k s →
       StationSet.holds k.pend.stations n = true → StationSet.holds k.feed n = true →
       ∃ t, exec (.pick address tag .good true) s = .next t ∧
         t = { s with
           track := s.track.setPocket i (some { k with
             pend := { k.pend with stations := StationSet.remove k.pend.stations n } })
           stations := s.stations.set n.val
             { s.stations.get n with timer := true, misses := 0, doubles := 0 } n.isLt
           counters := t.counters } ∧
         (∀ m k, t.counters.stationTotal.get (stationIndex m k) =
             (if m = n ∧ k = .picks then satIncr (s.counters.stationTotal.get (stationIndex m k))
              else s.counters.stationTotal.get (stationIndex m k)) ∧
           t.counters.stationInterval.get (stationIndex m k) =
             (if m = n ∧ k = .picks then satIncr (s.counters.stationInterval.get (stationIndex m k))
              else s.counters.stationInterval.get (stationIndex m k))) ∧
         t.counters.total = s.counters.total ∧ t.counters.interval = s.counters.interval ∧
         t.counters.snapshots = s.counters.snapshots)

/-- A matched MISS or DOUBLE removes the station from its pocket's pending set and faults the pocket: a LIVE
one takes the fault with the station, a FAULTED one keeps its own and LATER_FAULTS is counted (R74, R135,
R140). The run of the result rises by 1 up to 15 and the other run becomes 0; a run at its limit makes an
ONLINE station suffer a station fault with the limit as its cause (R77, R78), and no other station
changes. -/
def Obligations.BadPickFaultsThePocket : Prop :=
  ∀ (p : Profile) (address : Byte) (tag : Tag) (n : Fin 12) (i : Nat) (k : Pocket)
    (result : PickResult) (cause : FaultCause) (limit : StationCause) (s : State),
    s.job = some p → address.toNat = n.val → TagAt tag i k s →
    StationSet.holds k.pend.stations n = true → StationSet.holds k.feed n = true →
    (result = .miss ∧ cause = .miss ∧ limit = .missLimit ∨
      result = .double ∧ cause = .double ∧ limit = .doubleLimit) →
    ∃ t, exec (.pick address tag result true) s = .next t ∧
      (∀ m, m ≠ n → t.stations.get m = s.stations.get m) ∧
      (∃ q, t.track.pocketAt i = some q ∧ q.serial = k.serial ∧ q.feed = k.feed ∧
        q.pend = { k.pend with stations := StationSet.remove k.pend.stations n } ∧
        (k.state = .live → q.state = .faulted ∧
          q.fault = some { cause := cause, station := some n, suspect := false } ∧
          Counted .firstFaults s t) ∧
        (k.state ≠ .live → q.state = k.state ∧ q.fault = k.fault ∧ t.remakes = s.remakes) ∧
        (k.state = .faulted → Counted .laterFaults s t)) ∧
      (let e := s.stations.get n
       let run := min 15 ((if result = .miss then e.misses else e.doubles) + 1)
       let bound := if result = .miss then e.missLimit else e.doubleLimit
       let counted : Station := { e with
         timer := true, misses := (if result = .miss then run else 0),
         doubles := (if result = .double then run else 0) }
       ((e.state ≠ .online ∨ run < bound) → t.stations.get n = counted ∧
         NotCounted .stationFaults s t) ∧
       (e.state = .online → bound ≤ run → Counted .stationFaults s t ∧
         t.stations.get n = (if e.bypassAction = true ∧ n ≠ 0 ∧ n ≠ 11
           then { counted with state := .bypassed, cause := some limit, misses := 0, doubles := 0 }
           else { counted with state := .faulted, cause := some limit }) ∧
         (¬ (e.bypassAction = true ∧ n ≠ 0 ∧ n ≠ 11) → s.line.state = .running →
           Paused .station s t))) ∧
      t.staging = s.staging ∧ t.gauge = s.gauge ∧ t.print = s.print ∧ t.gate = s.gate ∧
      t.request = s.request ∧ t.profile = s.profile ∧ t.wrap.film = s.wrap.film ∧
      t.wrap.sealOk = s.wrap.sealOk ∧ SameChain s t ∧ SamePockets s t

/-- A STATE whose check fails or whose address is above 12 is discarded (R68). From a station its condition
becomes the last STATE and the silence timer runs, whether or not a job is loaded (R69); a JAM makes an
ONLINE station suffer a station fault (R77, R78, R81), and nothing else follows from it (R79). -/
def Obligations.StationStateIsRecorded : Prop :=
  ∀ (address : Byte) (condition : Condition) (temperature : BitVec 16) (s : State),
    (∀ ok, (ok = false ∨ 12 < address.toNat) →
      exec (.stateMessage address condition temperature ok) s = .next s) ∧
    (∀ n : Fin 12, address.toNat = n.val →
      ∃ t, exec (.stateMessage address condition temperature true) s = .next t ∧
        (let e := s.stations.get n
         let heard : Station := { e with timer := true, lastState := some condition }
         ((e.state ≠ .online ∨ condition ≠ .jam) →
           t = { s with stations := s.stations.set n.val heard n.isLt }) ∧
         (e.state = .online → condition = .jam → Counted .stationFaults s t ∧
           (∀ m, m ≠ n → t.stations.get m = s.stations.get m) ∧
           t.stations.get n = (if e.bypassAction = true ∧ n ≠ 0 ∧ n ≠ 11
             then { heard with state := .bypassed, cause := some .jam, misses := 0, doubles := 0 }
             else { heard with state := .faulted, cause := some .jam }) ∧
           (e.bypassAction = true → n ≠ 0 → n ≠ 11 → t.line = s.line) ∧
           (¬ (e.bypassAction = true ∧ n ≠ 0 ∧ n ≠ 11) →
             (s.line.state = .running ∨ s.line.state = .draining → Paused .station s t) ∧
             (s.line.state ≠ .running → s.line.state ≠ .draining → t.line = s.line)) ∧
           (LinkOpen s → t.link.attention.getLsbD 5 = true) ∧
           SameButPaused { t with stations := s.stations } s)))

/-- A STATE from the sealer unit restarts its silence timer; one reporting READY hands the temperature over
while a job is loaded: the staleness timer runs, the seal becomes OK inside the window less the hysteresis
from OUT, and OUT outside the window from OK (R69, R128, R129). The expiry of a staleness timer that runs
makes the seal OUT; a timer that does not run has no expiry. Each move from OK to OUT counts in SEAL_OUT
(R132). -/
def Obligations.TheSealFollowsTheTemperature : Prop :=
  (∀ (condition : Condition) (temperature : BitVec 16) (s : State),
       ∃ t, exec (.stateMessage 12 condition temperature true) s = .next t ∧
         t.sealerTimer = true ∧
         ((condition ≠ .ready ∨ s.job = none) → t = { s with sealerTimer := true }) ∧
         (∀ p, condition = .ready → s.job = some p →
           t.wrap = { s.wrap with timer := true, sealOk := t.wrap.sealOk } ∧
           (s.wrap.sealOk = false → (t.wrap.sealOk = true ↔
             p.sealLow + p.sealHyst ≤ temperature.toNat ∧
             temperature.toNat + p.sealHyst ≤ p.sealHigh) ∧ NotCounted .sealOut s t) ∧
           (s.wrap.sealOk = true → (t.wrap.sealOk = true ↔
             p.sealLow ≤ temperature.toNat ∧ temperature.toNat ≤ p.sealHigh) ∧
             (t.wrap.sealOk = true → NotCounted .sealOut s t) ∧
             (t.wrap.sealOk = false → Counted .sealOut s t)) ∧
           OnlyCounted [.sealOut, .interrupts] s t ∧
           SameButWrap { t with sealerTimer := s.sealerTimer } s)) ∧
  (∀ s : State,
       (s.wrap.timer = false → exec .stalenessTimeout s = .next s) ∧
       (s.wrap.timer = true → ∃ t, exec .stalenessTimeout s = .next t ∧
         t.wrap = { s.wrap with timer := false, sealOk := false } ∧
         (s.wrap.sealOk = true → Counted .sealOut s t) ∧ (s.wrap.sealOk = false → NotCounted .sealOut s t) ∧
         OnlyCounted [.sealOut, .interrupts] s t ∧ SameButWrap t s))

/-- The expiry of a silence timer that runs makes the last STATE of its station absent (R69); a fitted ONLINE
station suffers a station fault with cause LOST while a job is loaded (R69, R77): under BYPASS the line goes
on, under STOP a RUNNING or DRAINING line is paused with STATION, and STATION_FAULT attention is set (R78,
R81). A timer that does not run has no expiry. The sealer unit's own expiry stops its timer. -/
def Obligations.SilenceLosesTheStation : Prop :=
  ∀ s : State,
    exec (.silenceTimeout 12) s = .next { s with sealerTimer := false } ∧
    (∀ n : Fin 12, (s.stations.get n).timer = false →
      exec (.silenceTimeout n.castSucc) s = .next s) ∧
    (∀ n : Fin 12, (s.stations.get n).timer = true →
      ∃ t, exec (.silenceTimeout n.castSucc) s = .next t ∧
        (let e := s.stations.get n
         let silent : Station := { e with timer := false, lastState := none }
         ((e.state ≠ .online ∨ e.fitted = false ∨ s.job = none) →
           t = { s with stations := s.stations.set n.val silent n.isLt }) ∧
         (e.state = .online → e.fitted = true → s.job ≠ none → Counted .stationFaults s t ∧
           (∀ m, m ≠ n → t.stations.get m = s.stations.get m) ∧
           t.stations.get n = (if e.bypassAction = true ∧ n ≠ 0 ∧ n ≠ 11
             then { silent with state := .bypassed, cause := some .lost, misses := 0, doubles := 0 }
             else { silent with state := .faulted, cause := some .lost }) ∧
           (e.bypassAction = true → n ≠ 0 → n ≠ 11 → t.line = s.line) ∧
           (¬ (e.bypassAction = true ∧ n ≠ 0 ∧ n ≠ 11) →
             (s.line.state = .running ∨ s.line.state = .draining → Paused .station s t) ∧
             (s.line.state ≠ .running → s.line.state ≠ .draining → t.line = s.line)) ∧
           (LinkOpen s → t.link.attention.getLsbD 5 = true) ∧
           SameButPaused { t with stations := s.stations } s)))

/-- A film count moves F by 1, saturating at 65535 either way (R123); in IDLE it is discarded. In RUNNING and
DRAINING, with F more than 4 times F_NOM from 0 and the mark clear, it sets the mark, counts in RUNAWAYS
and halts the line with cause RUNAWAY (R127). -/
def Obligations.FilmCountAndRunaway : Prop :=
  ∀ (forward : Bool) (s : State),
    (s.job = none → exec (.filmCount forward) s = .next s) ∧
    (∀ p, s.job = some p → ∃ t, exec (.filmCount forward) s = .next t ∧
      t.wrap.film = (if forward then (if s.wrap.film < 65535 then s.wrap.film + 1 else s.wrap.film)
        else (if -65535 < s.wrap.film then s.wrap.film - 1 else s.wrap.film)) ∧
      ((((s.line.state ≠ .running ∧ s.line.state ≠ .draining) ∨ s.wrap.runaway = true ∨
          t.wrap.film.natAbs ≤ 4 * p.fNom)) →
        t = { s with wrap := { s.wrap with film := t.wrap.film } }) ∧
      ((s.line.state = .running ∨ s.line.state = .draining) → s.wrap.runaway = false →
        4 * p.fNom < t.wrap.film.natAbs → TakesHalt s →
        Halted .runaway s t ∧ t.wrap.runaway = true ∧ t.wrap.sealOk = s.wrap.sealOk ∧
        t.wrap.run = s.wrap.run ∧ Counted .runaways s t ∧
        SameButHalted { t with wrap := s.wrap } s))

/-! ## Heads and reader -/

/-- A DONE matches the pocket of its tag whose pending set holds HEAD_ACK and that its head printed: the match
removes HEAD_ACK and changes nothing else, in every state of a fitted head. One that matches no pocket is a
stray, and so is such a HEAD_ERROR: HEAD_STRAYS is counted, and nothing else changes (R109, R110). A message
whose check fails, from an OFF head, or with no job loaded is discarded (R105). A READ or NOREAD whose check
fails or that comes with no job loaded is discarded; one that no pocket on the track awaits is counted in
READ_STRAYS and changes nothing else (R111). -/
def Obligations.DoneAndStrayReplies : Prop :=
  (∀ (h : Head) (tag : Tag) (s : State),
       (∀ ok, (ok = false ∨ s.job = none ∨ (s.headEntry h).state = .off) →
         exec (.done h tag ok) s = .next s) ∧
       (s.job ≠ none → (s.headEntry h).state ≠ .off →
         (∀ i k, TagAt tag i k s → k.pend.headAck = true → k.printedBy = some h →
           ∃ t, exec (.done h tag true) s = .next t ∧
             t = { s with
               track := s.track.setPocket i
                 (some { k with pend := { k.pend with headAck := false } }) }) ∧
         (NoTag tag (fun k => k.pend.headAck && decide (k.printedBy = some h)) s →
           ∃ t, exec (.done h tag true) s = .next t ∧ t = { s with counters := t.counters } ∧
             Counted .headStrays s t ∧ OnlyCounted [.headStrays] s t))) ∧
  (∀ (h : Head) (tag : Tag) (s : State),
       (∀ ok, (ok = false ∨ s.job = none ∨ (s.headEntry h).state = .off) →
         exec (.headError h tag ok) s = .next s) ∧
       (s.job ≠ none → (s.headEntry h).state ≠ .off →
         NoTag tag (fun k => k.pend.headAck && decide (k.printedBy = some h)) s →
         ∃ t, exec (.headError h tag true) s = .next t ∧ t = { s with counters := t.counters } ∧
           Counted .headStrays s t ∧ OnlyCounted [.headStrays] s t)) ∧
  (∀ (tag : Tag) (jobTag : BitVec 16) (serial : Word) (check : BitVec 16) (corrected : Bool)
       (s : State),
       (∀ ok, (ok = false ∨ s.job = none) →
         exec (.read tag jobTag serial check corrected ok) s = .next s ∧
         exec (.noread tag ok) s = .next s) ∧
       (s.job ≠ none → NoTag tag (fun k => k.pend.readBack) s →
         ∃ t, exec (.read tag jobTag serial check corrected true) s = .next t ∧
           exec (.noread tag true) s = .next t ∧ t = { s with counters := t.counters } ∧
           Counted .readStrays s t ∧ OnlyCounted [.readStrays] s t))

/-- A matched HEAD_ERROR removes HEAD_ACK, faults the pocket PRINT_ERROR (its first fault if it is LIVE,
R135), counts in HEAD_ERRORS, and swaps its head if it is ACTIVE (R110): to PURGING with its countdown at
PURGE_SPITS, or to FAILED at what would be its third purge, its NOREAD run 0, and a STANDBY other head
ACTIVE, with HEAD_SWAPS counted (R113). A head that is not ACTIVE stays as it is. -/
def Obligations.HeadErrorFaultsAndSwaps : Prop :=
  ∀ (p : Profile) (h : Head) (tag : Tag) (i : Nat) (k : Pocket) (s : State),
    s.job = some p → (s.headEntry h).state ≠ .off → TagAt tag i k s →
    k.pend.headAck = true → k.printedBy = some h →
    ∃ t, exec (.headError h tag true) s = .next t ∧ Counted .headErrors s t ∧
      (∃ q, t.track.pocketAt i = some q ∧ q.serial = k.serial ∧ q.pend.readBack = k.pend.readBack ∧
        q.pend.headAck = false ∧ q.pend.stations = k.pend.stations ∧
        (k.state = .live → q.state = .faulted ∧
          q.fault = some { cause := .printError, station := none, suspect := false }) ∧
        (k.state ≠ .live → q.state = k.state ∧ q.fault = k.fault ∧ t.remakes = s.remakes)) ∧
      (let e := s.headEntry h
       let o := s.headEntry (otherHead h)
       (e.state ≠ .active → t.print = s.print ∧ NotCounted .headSwaps s t) ∧
       (e.state = .active → Counted .headSwaps s t ∧
         t.headEntry h = (if e.purges < 2
           then { state := .purging, purges := e.purges + 1, countdown := p.purgeSpits, run := 0 }
           else { e with state := .failed, run := 0 }) ∧
         t.headEntry (otherHead h) = (if o.state = .standby then { o with state := .active } else o) ∧
         t.print.readBacks = s.print.readBacks ∧ t.print.window = s.print.window ∧
         (e.purges < 2 → Counted .purges s t) ∧ (¬ e.purges < 2 → NotCounted .purges s t) ∧
         (¬ e.purges < 2 → (o.state = .failed ∨ o.state = .off) → s.line.state = .running →
           t.line.stop = .noPrint ∧ (t.line.state = .draining ∨ t.line.state = .paused)))) ∧
      t.staging = s.staging ∧ t.stations = s.stations ∧ t.gauge = s.gauge ∧ t.gate = s.gate ∧
      t.request = s.request ∧ t.profile = s.profile ∧ t.wrap.film = s.wrap.film ∧
      SameChain s t ∧ SamePockets s t

/-- A READ that is matched is judged against the job tag and the read-back entry of its pocket, MISMATCH first,
then PRINT_DATA, then CORRECTED or MATCH (R112). The result becomes the pocket's, with READ_BACK and its
list entry gone (R108), faults the pocket where it is PRINT_DATA or MISMATCH, is counted (R121), moves
the NOREAD run of the head that printed (R114) and joins the verify window (R120). Two MISMATCH results in
the window count in SLIPS and halt a line that takes a halt cause, with cause SLIP, and the halt empties
the window (R120, R176); with fewer no halt follows. CORRECTED sets VERIFY_CORRECTED in the context of a
pocket that is its subscriber's latest attempt; where a remake has been fed since, the context stays as it
is: that R146 takes the reply of the faulted predecessor out of R112 there is the model's reading
(DEDUCED, unsafe, log 37). The fault of a FAULTED pocket is a later fault, counted in LATER_FAULTS (R140). -/
def Obligations.ReadIsJudged : Prop :=
  ∀ (p : Profile) (tag : Tag) (jobTag : BitVec 16) (serial : Word) (check : BitVec 16)
    (corrected : Bool) (i : Nat) (k : Pocket) (r : ReadBack) (s : State),
    s.job = some p → TagAt tag i k s → k.pend.readBack = true →
    s.print.readBacks.find? (fun q => decide (q.pocket = k.serial)) = some r →
    let result : VerifyResult :=
      if jobTag.toNat ≠ p.jobTag ∨ serial.toNat ≠ r.serial then .mismatch
      else if check.toNat ≠ r.checkValue then .printData
      else if corrected = true then .corrected else .matched
    let joined := s.print.window ++ [result]
    let window := joined.drop (joined.length - 8)
    ∃ t, exec (.read tag jobTag serial check corrected true) s = .next t ∧
      (∃ q, t.track.pocketAt i = some q ∧ q.serial = k.serial ∧ q.verify = some result ∧
        q.pend = { k.pend with readBack := false } ∧
        (k.state ≠ .live → q.state = k.state ∧ q.fault = k.fault) ∧
        (result = .printData → k.state = .live → q.state = .faulted ∧
          q.fault = some { cause := .printData, station := none, suspect := false }) ∧
        (result = .mismatch → k.state = .live → q.state = .faulted ∧
          q.fault = some { cause := .mismatch, station := none, suspect := false }) ∧
        ((window.count .mismatch < 2 ∨ ¬ TakesHalt s) →
          (result = .matched ∨ result = .corrected ∨ k.state ≠ .live) →
          q.state = k.state ∧ q.fault = k.fault ∧ t.remakes = s.remakes)) ∧
      t.print.readBacks = s.print.readBacks.filter (fun q => q.pocket ≠ k.serial) ∧
      t.headEntry r.head = { s.headEntry r.head with
        run := if result = .matched ∨ result = .corrected then 0 else (s.headEntry r.head).run } ∧
      t.headEntry (otherHead r.head) = s.headEntry (otherHead r.head) ∧
      Counted (match result with
        | .matched => .readMatch | .corrected => .readCorrected | .noread => .readNoread
        | .printData => .readPrintData | .mismatch => .readMismatch) s t ∧
      (k.state = .faulted → (result = .printData ∨ result = .mismatch) → Counted .laterFaults s t) ∧
      ((k.state ≠ .faulted ∨ result = .matched ∨ result = .corrected) →
        NotCounted .laterFaults s t) ∧
      ((window.count .mismatch < 2 ∨ ¬ TakesHalt s) → t.print.window = window ∧
        (result = .corrected → ∀ j c, pocketContext k s = some (j, c) →
          contextAt j t = some (if c.lastPocket = k.serial then { c with verifyCorrected := true }
            else c))) ∧
      (window.count .mismatch < 2 → NotCounted .slips s t ∧ t.line.halt = s.line.halt) ∧
      (2 ≤ window.count .mismatch → Counted .slips s t ∧
        (TakesHalt s → (∀ q ∈ s.request, q.code ≠ 6) →
          Halted .slip s t ∧ t.print.window = [] ∧ Counted .halts s t)) ∧
      t.staging = s.staging ∧ t.stations = s.stations ∧ t.gauge = s.gauge ∧ t.gate = s.gate ∧
      t.request = s.request ∧ t.profile = s.profile ∧ SameChain s t ∧ SamePockets s t

/-- A matched NOREAD faults its pocket NOREAD, raises the NOREAD run of the head that printed up to 15, and
swaps that head where its run has reached HEAD_FAIL_LIMIT and it is ACTIVE (R112 to R114): to PURGING, or to
FAILED at what would be its third purge, and a STANDBY other head becomes ACTIVE (R113). It joins the verify
window (R120): two MISMATCH results left in the window count in SLIPS and halt a line that takes a halt
cause, with cause SLIP, and the halt empties the window (R120, R176); with fewer no halt follows. Where the
swap loses the last usable head of a RUNNING line, NO_PRINT drains or pauses it (R117, R181), and a halt
with cause SLIP keeps that stop cause (R176): that the head is charged before the window is judged is the
model's choice (log 41). The fault of a FAULTED pocket is a later fault, counted in LATER_FAULTS (R140). -/
def Obligations.NoreadIsCharged : Prop :=
  ∀ (p : Profile) (tag : Tag) (i : Nat) (k : Pocket) (r : ReadBack) (s : State),
    s.job = some p → TagAt tag i k s → k.pend.readBack = true →
    s.print.readBacks.find? (fun q => decide (q.pocket = k.serial)) = some r →
    let joined := s.print.window ++ [.noread]
    let window := joined.drop (joined.length - 8)
    ∃ t, exec (.noread tag true) s = .next t ∧ Counted .readNoread s t ∧
      (k.state = .faulted → Counted .laterFaults s t) ∧
      (k.state ≠ .faulted → NotCounted .laterFaults s t) ∧
      (∃ q, t.track.pocketAt i = some q ∧ q.serial = k.serial ∧ q.verify = some .noread ∧
        q.pend = { k.pend with readBack := false } ∧
        (k.state = .live → q.state = .faulted ∧
          q.fault = some { cause := .noread, station := none, suspect := false }) ∧
        (k.state ≠ .live → q.state = k.state ∧ q.fault = k.fault ∧
          ((window.count .mismatch < 2 ∨ ¬ TakesHalt s) → t.remakes = s.remakes))) ∧
      ((window.count .mismatch < 2 ∨ ¬ TakesHalt s) → t.print.window = window) ∧
      (window.count .mismatch < 2 → NotCounted .slips s t ∧ t.line.halt = s.line.halt) ∧
      (2 ≤ window.count .mismatch → Counted .slips s t ∧
        (TakesHalt s → (∀ q ∈ s.request, q.code ≠ 6) →
          t.line.state = .halted ∧ t.line.halt = .slip ∧ t.line.drain = none ∧
          t.line.runEnable = false ∧ t.line.quickStop = true ∧
          t.line.fileExhausted = s.line.fileExhausted ∧
          (min 15 ((s.headEntry r.head).run + 1) < p.headFailLimit → Halted .slip s t) ∧
          t.print.window = [] ∧ Counted .halts s t)) ∧
      t.print.readBacks = s.print.readBacks.filter (fun q => q.pocket ≠ k.serial) ∧
      (let e := s.headEntry r.head
       let o := s.headEntry (otherHead r.head)
       let run := min 15 (e.run + 1)
       ((run < p.headFailLimit ∨ e.state ≠ .active) →
         t.headEntry r.head = { e with run := run } ∧ NotCounted .headSwaps s t ∧
         t.headEntry (otherHead r.head) = o) ∧
       (p.headFailLimit ≤ run → e.state = .active → Counted .headSwaps s t ∧
         t.headEntry r.head = (if e.purges < 2
           then { state := .purging, purges := e.purges + 1, countdown := p.purgeSpits, run := 0 }
           else { e with state := .failed, run := 0 }) ∧
         t.headEntry (otherHead r.head) =
           (if o.state = .standby then { o with state := .active } else o) ∧
         (e.purges < 2 → Counted .purges s t) ∧ (¬ e.purges < 2 → NotCounted .purges s t) ∧
         (¬ e.purges < 2 → (o.state = .failed ∨ o.state = .off) → s.line.state = .running →
           t.line.stop = .noPrint ∧
           (window.count .mismatch < 2 → t.line.state = .draining ∨ t.line.state = .paused) ∧
           (2 ≤ window.count .mismatch → (∀ q ∈ s.request, q.code ≠ 6) →
             t.line.state = .halted ∧ t.line.halt = .slip)))) ∧
      t.staging = s.staging ∧ t.stations = s.stations ∧ t.gauge = s.gauge ∧ t.gate = s.gate ∧
      t.request = s.request ∧ t.profile = s.profile ∧ SameChain s t ∧ SamePockets s t

/-! ## The gauge -/

/-- The conversion of the analog input, in steps of the converter above the bottom of its range (log 39):
below the bottom it reads 0, at or above the top 4095 (R89).
The thickness of a judged pocket, its tolerance and its verdict (R92, R94, R95): t is the reading above the
zero, scaled and rounded down, 0 at or below the zero and at most 65264 for the values LOAD_JOB allows;
W grows with E and is at most 20000; d = t − E is SHORT below −W, OVER above W, else GOOD.
The zero follows a reading by one eighth of the difference, truncated toward zero: the new zero lies between
the old zero and 16 times the reading, and a difference from −7 to 7 sixteenths leaves it (R97). -/
def Obligations.GaugeArithmetic : Prop :=
  (∀ x : Int, (x < 0 → (convert x).toNat = 0) ∧ (4095 ≤ x → (convert x).toNat = 4095) ∧
    (0 ≤ x → x ≤ 4095 → ((convert x).toNat : Int) = x)) ∧
  (∀ r z scale : Nat, r ≤ 4095 → scale ≤ 255 →
    thicknessOf r z scale = ((16 * (r : Int) - z).toNat * scale) / 256 ∧
    thicknessOf r z scale ≤ 65264) ∧
  (∀ (p : Profile) (e : Nat), toleranceOf p e = p.wFixed + e * p.wPm / 1000 ∧
    (p.wFixed ≤ 5000 → p.wPm ≤ 250 → e ≤ 60000 → toleranceOf p e ≤ 20000)) ∧
  (∀ t e w : Nat, let d := (t : Int) - e
    (verdictOf t e w = .short ↔ d < -w) ∧ (verdictOf t e w = .over ↔ (w : Int) < d) ∧
    (verdictOf t e w = .good ↔ -(w : Int) ≤ d ∧ d ≤ w)) ∧
  (∀ z r : Nat,
       (zeroAfter z r : Int) = z + (16 * (r : Int) - z).tdiv 8 ∧
       min z (16 * r) ≤ zeroAfter z r ∧ zeroAfter z r ≤ max z (16 * r) ∧
       ((16 * (r : Int) - z).natAbs ≤ 7 → zeroAfter z r = z))

/-- The arrival at GAUGE (R90). A GAP moves the zero of an ACTIVE or SUSPENDED gauge (R97), suspends an ACTIVE
one whose zero stands more than DRIFT_LIM from the reference (R98, R99), and calibrates a CALIBRATING
one (R100); each reading counts in ZERO_UPDATES. With the gauge OFF nothing happens. -/
def Obligations.GapsMoveTheZero : Prop :=
  ∀ (p : Profile) (snap : Track) (r : Nat) (i : Nat) (k : Pocket) (s : State),
    pocketThere p p.gaugePos s = some (i, k) → k.kind = .gap →
    let t := gaugeArrival p snap r s
    let z := zeroAfter s.gauge.z16 r
    let drifts := 0 < p.driftLim ∧ 16 * p.driftLim < distance z s.gauge.zRef
    SameButGauge t s ∧
    (s.gauge.state = .off → t = s) ∧
    (s.gauge.state ≠ .off → Counted .zeroUpdates s t) ∧
    (s.gauge.state = .active → drifts → Counted .gaugeDrifts s t ∧
      t.gauge = { s.gauge with z16 := z, state := .suspended } ∧
      (LinkOpen s → t.link.attention.getLsbD 7 = true)) ∧
    (s.gauge.state = .active → ¬ drifts →
      t.gauge = { s.gauge with z16 := z } ∧ NotCounted .gaugeDrifts s t) ∧
    (s.gauge.state = .suspended →
      t.gauge = { s.gauge with z16 := z } ∧ NotCounted .gaugeDrifts s t) ∧
    (s.gauge.state = .calibrating →
      t.gauge = { state := .active, z16 := 16 * r, zRef := 16 * r } ∧
      NotCounted .gaugeDrifts s t)

/-- A pocket judged at GAUGE (R91) by an ACTIVE gauge takes its thickness and is classified against the sum of
T over its feed set (R92 to R95): GOOD leaves it as it is, SHORT and OVER fault it with no station; each
verdict is counted. With the gauge in another state it is skipped: GAUGE_SKIPPED is set in its context and
counted, and the pocket stays as it is (R96). Where the subscriber's remake was fed before the gauge acts,
its context keeps the flag clear, which is the model's reading (log 37). A pocket not LIVE at the pitch event
gets no reading used. -/
def Obligations.JudgedPocketsAreClassified : Prop :=
  ∀ (p : Profile) (snap : Track) (r : Nat) (i : Nat) (k : Pocket) (s : State),
    pocketThere p p.gaugePos s = some (i, k) → k.kind ≠ .gap →
    let t := gaugeArrival p snap r s
    let judged := stateAtPitch p snap p.gaugePos = some .live
    let thick := thicknessOf r s.gauge.z16 p.scale
    let expected := ((StationSet.toList k.feed).map fun n => (s.stations.get n).thickness).sum
    let verdict := verdictOf thick expected (toleranceOf p expected)
    t.gauge = s.gauge ∧ SameButPieces t s ∧
    (¬ judged → t = s) ∧
    (judged → s.gauge.state = .active →
      (∃ q, t.track.pocketAt i = some q ∧ q.thickness = some thick ∧
        (verdict = .good → t.track = s.track.setPocket i (some { k with thickness := some thick }) ∧
          Counted .gaugeGood s t ∧ OnlyCounted [.gaugeGood] s t) ∧
        (verdict ≠ .good → k.state = .live → q.state = .faulted ∧
          q.fault = some { cause := if verdict = .short then .short else .over, station := none,
                           suspect := false } ∧ Counted .firstFaults s t) ∧
        (verdict ≠ .good → k.state = .faulted → q.state = .faulted ∧ q.fault = k.fault ∧
          Counted .laterFaults s t)) ∧
      (verdict = .short → Counted .gaugeShort s t) ∧
      (verdict = .over → Counted .gaugeOver s t)) ∧
    (judged → s.gauge.state ≠ .active → t.track = s.track ∧ Counted .gaugeSkips s t ∧
      OnlyCounted [.gaugeSkips] s t ∧
      ∀ j c, pocketContext k s = some (j, c) →
        contextAt j t = some (if c.lastPocket = k.serial then { c with gaugeSkipped := true } else c))

/-! ## Arrivals -/

/-- The arrival at a fitted station (R71 to R73). ONLINE: one CALL with the pocket's tag, FEED for a LIVE pocket
whose subscriber selected the station, which then joins its feed set and its pending set, else NOFEED.
BYPASSED: no call, and the station joins the bypassed set of that subscriber's context. FAULTED: no call,
and the station joins the pending set alone. Nothing else changes.
The arrival at PRINT of a pocket that was LIVE at the pitch event and still has its context (R107): with a
head ACTIVE it is printed by that head, HEAD_ACK and READ_BACK are pending, the read-back list takes its
entry (R108) and PRINTS is counted; with none it is faulted NO_PRINT and NO_PRINTS counted. The arrival at
VERIFY triggers the reader for a pocket that was LIVE with READ_BACK pending (R111), and withdraws
READ_BACK from one that was FAULTED (R110). -/
def Obligations.StationPrintAndVerifyArrivals : Prop :=
  (∀ (p : Profile) (n : Fin 12) (i : Nat) (k : Pocket) (s : State),
    (s.stations.get n).fitted = true →
    pocketThere p (s.stations.get n).position s = some (i, k) →
    let t := stationArrival p n s
    let e := s.stations.get n
    let pend : PendingSet := { k.pend with stations := StationSet.add k.pend.stations n }
    (e.state = .online → wants n k s = true →
      t = { s with
        track := s.track.setPocket i (some { k with feed := StationSet.add k.feed n, pend := pend })
        sent := s.sent ++ [.call n (tagOf k.serial) true] }) ∧
    (e.state = .online → wants n k s = false →
      t = { s with sent := s.sent ++ [.call n (tagOf k.serial) false] }) ∧
    (e.state = .bypassed → wants n k s = true → t = { s with contexts := t.contexts } ∧
      ∀ j c, pocketContext k s = some (j, c) →
        contextAt j t = some { c with bypassed := StationSet.add c.bypassed n } ∧
        ∀ m, m ≠ j → contextAt m t = contextAt m s) ∧
    (e.state = .faulted → wants n k s = true →
      t = { s with track := s.track.setPocket i (some { k with pend := pend }) }) ∧
    ((e.state = .bypassed ∨ e.state = .faulted) → wants n k s = false → t = s) ∧
    (wants n k s = true ↔ k.state = .live ∧
      ∃ j c, pocketContext k s = some (j, c) ∧ StationSet.holds c.selection n = true)) ∧
  (∀ (p : Profile) (snap : Track) (i : Nat) (k : Pocket) (s : State),
    (pocketThere p p.printPos s = some (i, k) →
      let t := printArrival p snap s
      (stateAtPitch p snap p.printPos ≠ some .live → t = s) ∧
      (∀ j c, stateAtPitch p snap p.printPos = some .live → pocketContext k s = some (j, c) →
        (∀ h, activeHead s = some h →
          t.track = s.track.setPocket i (some { k with
            pend := { k.pend with headAck := true, readBack := true }, printedBy := some h }) ∧
          t.print = { s.print with readBacks := s.print.readBacks ++
            [{ pocket := k.serial, head := h, serial := c.serial, checkValue := c.checkValue }] } ∧
          t.sent = s.sent ++
            [.print h (tagOf k.serial) c.lines p.jobTag c.serial c.checkValue] ∧
          Counted .prints s t ∧ OnlyCounted [.prints] s t ∧ t.contexts = s.contexts ∧
          t.remakes = s.remakes) ∧
        (headActive s = false → k.state = .live → Counted .noPrints s t ∧
          Counted .firstFaults s t ∧ t.print = s.print ∧
          ∃ q, t.track.pocketAt i = some q ∧ q.state = .faulted ∧
            q.fault = some { cause := .noPrint, station := none, suspect := false }))) ∧
    (pocketThere p p.verifyPos s = some (i, k) →
      let t := verifyArrival p snap s
      (k.pend.readBack = false → t = s) ∧
      (k.pend.readBack = true → stateAtPitch p snap p.verifyPos = some .live →
        t = { s with sent := s.sent ++ [.trigger (tagOf k.serial)] }) ∧
      (k.pend.readBack = true → stateAtPitch p snap p.verifyPos = some .faulted →
        t = { s with
          track := s.track.setPocket i (some { k with pend := { k.pend with readBack := false } })
          print := { s.print with
            readBacks := s.print.readBacks.filter fun r => r.pocket ≠ k.serial } })))

/-- The film judgement of a pitch event (R124 to R126): F becomes 0, the mark clear, the run 0 in window and
else 1 more up to 15, counted in FILM_OUT; a run at its limit raises FILM, counted in FILM_STOPS, which
pauses a RUNNING line and a drain of either kind, and leaves any other line (R173). In an END drain the WRAP
fault of the same verdict may close the last page, and the job is then COMPLETE before FILM is raised: that
the fault comes first is the model's choice (log 36). A pocket LIVE at the pitch event is faulted WRAP by an
out-of-window count, and SEAL by an OUT seal, in that order (R125, R130). -/
def Obligations.FilmAndSealVerdicts : Prop :=
  ∀ (p : Profile) (snap : Track) (s : State), s.job = some p →
    let t := wrapPart p snap s
    let inside := (s.wrap.film - p.fNom).natAbs ≤ p.fTol
    let judged := stateAtPitch p snap p.sealPos = some .live
    let run := min 15 (s.wrap.run + 1)
    t.wrap = { s.wrap with film := 0, runaway := false, run := if inside then 0 else run } ∧
    (inside → NotCounted .filmOut s t ∧ NotCounted .filmStops s t) ∧
    (¬ inside → Counted .filmOut s t ∧
      (p.filmFaultLimit ≤ run → Counted .filmStops s t ∧
        (s.line.state = .running → Paused .film s t) ∧
        (s.line.state = .draining →
          (Paused .film s t ∨ (s.line.drain = some .endOfFile ∧ judged ∧ t.fetcher.pages = [] ∧
            t.line = { s.line with state := .complete, drain := none, runEnable := false }))) ∧
        (s.line.state ≠ .running → s.line.state ≠ .draining → t.line = s.line)) ∧
      (run < p.filmFaultLimit → NotCounted .filmStops s t)) ∧
    (∀ i k, pocketThere p p.sealPos s = some (i, k) → judged → k.state = .live →
      (∃ q, t.track.pocketAt i = some q ∧
        (¬ inside → q.state = .faulted ∧
          q.fault = some { cause := .wrap, station := none, suspect := false }) ∧
        (inside → s.wrap.sealOk = false → q.state = .faulted ∧
          q.fault = some { cause := .sealFault, station := none, suspect := false }) ∧
        (inside → s.wrap.sealOk = true → q = k)) ∧
      (¬ inside → Counted .wrapFaults s t) ∧ (s.wrap.sealOk = false → Counted .sealFaults s t)) ∧
    (¬ judged → t.track = s.track ∧ NotCounted .wrapFaults s t ∧ NotCounted .sealFaults s t)

/-- The arrival at REJECT (R142 to R144): each item still pending becomes a fault, counted in GATE_FAULTS,
the first of a LIVE pocket being its first fault and the others later faults; the pending set is emptied, and
where READ_BACK was in it the entry of the pocket leaves the read-back list and no other does (R108); a FAULTED
pocket is DIVERTED with the gate at DIVERT, a LIVE one passes with the gate at PASS, and so does an
EMPTY one. The arrival at the last position of a LIVE pocket with its context (R163): STACK and MAILED for
an in-sort subscriber, whose bundle's delivered count rises by 1, so that a bundle it resolves closes or
waits (R159, R160); OOS_EXIT and MAILED_OOS else, which no bundle counts; the pocket DELIVERED without its
reference and the context freed (R14); its outcome half and the final count of its page are written after
the command (R43, R163). Any other pocket there gives no command. Which fields share one write is the model's
choice (log 50). -/
def Obligations.TheGateAndTheStacker : Prop :=
  (∀ (p : Profile) (i : Nat) (k : Pocket) (s : State), pocketThere p p.rejectPos s = some (i, k) →
       let t := rejectArrival p s
       let items := pendingFaults k
       ∃ q, t.track.pocketAt i = some q ∧ q.serial = k.serial ∧
         q.pend = { stations := 0, headAck := false, readBack := false } ∧
         (k.pend.readBack = true → (∀ r ∈ t.print.readBacks, r.pocket ≠ k.serial) ∧
           t.print = { s.print with
             readBacks := s.print.readBacks.filter fun r => r.pocket ≠ k.serial }) ∧
         (k.pend.readBack = false → t.print = s.print) ∧
         CountedTimes items.length .gateFaults s t ∧
         (k.state = .live → CountedTimes (items.length - 1) .laterFaults s t ∧
           CountedTimes (min 1 items.length) .firstFaults s t) ∧
         (k.state = .faulted → CountedTimes items.length .laterFaults s t ∧
           NotCounted .firstFaults s t) ∧
         (k.state = .live → items = [] → q.state = .live ∧ q.fault = k.fault ∧ t.gate = .pass ∧
           Counted .passes s t ∧ OnlyCounted [.passes] s t) ∧
         (∀ c n rest, k.state = .live → items = (c, n) :: rest → q.state = .diverted ∧
           q.fault = some { cause := c, station := n, suspect := false } ∧ t.gate = .divert ∧
           Counted .diverts s t) ∧
         (k.state = .faulted → q.state = .diverted ∧ q.fault = k.fault ∧ t.gate = .divert ∧
           Counted .diverts s t ∧ t.remakes = s.remakes) ∧
         (k.state = .empty → q.state = .empty ∧ t.gate = .pass ∧ NotCounted .passes s t ∧
           NotCounted .diverts s t)) ∧
  (∀ (p : Profile) (i : Nat) (k : Pocket) (s : State),
       pocketThere p (p.trackLen - 1) s = some (i, k) →
       let t := lastArrival p s
       (k.state ≠ .live → t = s) ∧
       (∀ j c, k.state = .live → pocketContext k s = some (j, c) →
         (s.stacker.pulse = none → s.stacker.held = []) →
         (∃ q, t.track.pocketAt i = some q ∧ q.serial = k.serial ∧ q.state = .delivered ∧
           q.subscriber = none) ∧
         contextAt j t = none ∧ (∀ m, m ≠ j → contextAt m t = contextAt m s) ∧
         (∃ more, t.stacker.pulse.toList ++ t.stacker.held =
           s.stacker.pulse.toList ++ s.stacker.held ++
             [if c.sort = .inSort then .stack else .oosExit] ++ more) ∧
         (c.sort = .inSort → Counted .stacked s t ∧ Counted .mailed s t ∧
           BundleCounts c.ordinal (fun b => { b with delivered := b.delivered + 1 }) s t) ∧
         (c.sort = .oos → Counted .oosExits s t ∧ Counted .mailedOos s t ∧
           t.bundles = s.bundles) ∧ t.remakes = s.remakes ∧
         (∀ q, pageAt c.pageSlot s = some q → LinkOpen s → ∃ more, t.sent = s.sent ++
           (if s.stacker.pulse = none
             then [.pulse (if c.sort = .inSort then .stack else .oosExit)] else []) ++
           outcomeWrites q c k.serial (if c.sort = .inSort then .mailed else .mailedOos) ++ more)))

/-- A fault taken for a FAULTED pocket is a later fault: it is counted, and the pocket's fault, state and pending
set, the context, the Remake List and the bundles are left as they are, as is everything else (R140). -/
def Obligations.LaterFaultsAreCounted : Prop :=
  ∀ (i : Nat) (k : Pocket) (cause : FaultCause) (n : Option (Fin 12)) (b : Bool) (s : State),
    s.track.pocketAt i = some k → k.state = .faulted →
    let t := handFault i cause n b s
    t = { s with counters := t.counters } ∧ Counted .laterFaults s t ∧
    OnlyCounted [.laterFaults] s t

/-- A fault taken for a LIVE pocket (R135 to R139): it becomes FAULTED with the fault of the report, and the
context takes it as its last fault. With attempts below 1 + REMAKE_LIMIT the subscriber joins the tail of
the Remake List with the next attempt number and the sort class of its context, or of its bundle's state
(R138, R155): OOS from a SETTLING bundle, whose out-of-sort count rises by 1. Else it has FAILED, its
outcome half and the final count of its page are written (R43, R139), and its context is freed; the failed
count of the bundle of an IN_SORT subscriber rises by 1 (R157). A bundle that either count resolves closes
or waits (R159, R160). The FAILED outcome is written before the report of a bundle it closes, and so while
the opening record's page is open (R45, R161): of the two orders R161 allows this is the model's choice (log
38), and so is which fields share one write (log 50). -/
def Obligations.FirstFaultRule : Prop :=
  ∀ (p : Profile) (i : Nat) (k : Pocket) (cause : FaultCause) (n : Option (Fin 12)) (b : Bool)
    (s : State), s.job = some p → s.track.pocketAt i = some k →
    let t := handFault i cause n b s
    (∀ j c, k.state = .live → pocketContext k s = some (j, c) →
      Counted .firstFaults s t ∧ SameChain s t ∧ SamePockets s t ∧
      (∃ q, t.track.pocketAt i = some q ∧ q.state = .faulted ∧ q.pend = k.pend ∧ q.feed = k.feed ∧
        q.fault = some { cause := cause, station := n, suspect := b }) ∧
      (c.attempts < 1 + p.remakeLimit → Counted .remakesQueued s t ∧
        ∃ sort, t.remakes = s.remakes ++ [({
            context := j, serial := c.serial, ordinal := c.ordinal, sort := sort,
            attempt := c.attempts + 1 } : Remake)] ∧
          contextAt j t = some { c with lastFault := some (cause, n), sort := sort } ∧
          (c.sort = .oos → sort = .oos ∧ t.bundles = s.bundles) ∧
          (∀ g, c.sort = .inSort → bundleAt c.ordinal s = some g →
            ((g.state = .feeding ∨ g.state = .tailing) → sort = .inSort ∧ t.bundles = s.bundles) ∧
            (g.state = .settling → sort = .oos ∧
              BundleCounts c.ordinal (fun b => { b with outOfSort := b.outOfSort + 1 }) s t))) ∧
      (1 + p.remakeLimit ≤ c.attempts → Counted .failed s t ∧ contextAt j t = none ∧
        t.remakes = s.remakes ∧ NotCounted .remakesQueued s t ∧
        (c.sort = .oos → t.bundles = s.bundles) ∧
        (c.sort = .inSort →
          BundleCounts c.ordinal (fun b => { b with failed := b.failed + 1 }) s t) ∧
        ∀ q, pageAt c.pageSlot s = some q → LinkOpen s →
          let outcome := outcomeWrites q { c with lastFault := some (cause, n) } k.serial .failed
          (∃ more, t.sent = s.sent ++ outcome ++ more) ∧
          (c.sort = .inSort → ∀ g, bundleAt c.ordinal s = some g → s.bundles.head? = some g →
            g.resolved + 1 = g.size → g.state ≠ .doneWaiting →
            ∀ o, pageAt g.pageSlot s = some o → 0 < o.bundlesOpen →
              ∃ between more, t.sent = s.sent ++ outcome ++ between ++
                reportWrites o { g with failed := g.failed + 1 } k.serial .short ++ more)))

/-! ## Input lines, halts and the end of the job -/

/-- The stacker-ready line (R165): its fall while a job is loaded counts in STACKER_STOPS and pauses a RUNNING
or DRAINING line with STACKER; any other change raises nothing. The end of a pulse begins the pulse of the
oldest command held (R164).
The guard opening while a job is loaded raises GUARD, and drive-ready falling while run enable is on raises
DRIVE; every other change of level raises nothing (R177). A cause raised halts a line that takes it, counted
in HALTS, with HALTED attention (R176, R182). -/
def Obligations.TheInputLines : Prop :=
  ((∀ (ready : Bool) (s : State), ∃ t, exec (.stackerReadyChange ready) s = .next t ∧
    ((s.inputs.stackerReady = false ∨ ready = true ∨ s.job = none) →
      t = { s with inputs := { s.inputs with stackerReady := ready } }) ∧
    (s.inputs.stackerReady = true → ready = false → s.job ≠ none →
      Counted .stackerStops s t ∧ t.inputs = { s.inputs with stackerReady := false } ∧
      ((s.line.state = .running ∨ s.line.state = .draining) → Paused .stacker s t) ∧
      (s.line.state ≠ .running → s.line.state ≠ .draining → t.line = s.line) ∧
      SameButPaused { t with inputs := s.inputs } s)) ∧
  (∀ s : State, ∃ t, exec .stackerPulseEnd s = .next t ∧
    (s.stacker.pulse = none → t = s) ∧
    (∀ c, s.stacker.pulse = some c → s.stacker.held = [] →
      t = { s with stacker := { pulse := none, held := [] } }) ∧
    (∀ c d rest, s.stacker.pulse = some c → s.stacker.held = d :: rest →
      t = { s with stacker := { pulse := some d, held := rest }, sent := s.sent ++ [.pulse d] }))) ∧
  ((∀ (closed : Bool) (s : State), ∃ t, exec (.guardChange closed) s = .next t ∧
    ((s.inputs.guardClosed = false ∨ closed = true ∨ s.job = none ∨ ¬ TakesHalt s) →
      t = { s with inputs := { s.inputs with guardClosed := closed } }) ∧
    (s.inputs.guardClosed = true → closed = false → s.job ≠ none → TakesHalt s →
      Halted .guardOpen s t ∧ Counted .halts s t ∧
      t.inputs = { s.inputs with guardClosed := false } ∧
      (LinkOpen s → t.link.attention.getLsbD 9 = true ∧ t.link.attention.getLsbD 4 = true) ∧
      SameButHalted { t with inputs := s.inputs } s)) ∧
  (∀ (asserted : Bool) (s : State), ∃ t, exec (.driveReadyChange asserted) s = .next t ∧
    ((s.inputs.driveReady = false ∨ asserted = true ∨ s.line.runEnable = false ∨ ¬ TakesHalt s) →
      t = { s with inputs := { s.inputs with driveReady := asserted } }) ∧
    (s.inputs.driveReady = true → asserted = false → s.line.runEnable = true → TakesHalt s →
      Halted .drive s t ∧ Counted .halts s t ∧
      t.inputs = { s.inputs with driveReady := false } ∧
      (LinkOpen s → t.link.attention.getLsbD 9 = true ∧ t.link.attention.getLsbD 4 = true) ∧
      SameButHalted { t with inputs := s.inputs } s)))

/-- Halt entry leaves no LIVE pocket at the positions below REJECT (R147), moves no pocket and changes none of
the encoder's counts (R23), and leaves every pocket that was not LIVE, and every pocket at or beyond
REJECT, in its state. The verify window is emptied (R120). -/
def Obligations.HaltLeavesNoLivePocketUpstream : Prop :=
  ∀ (p : Profile) (c : HaltCause) (s : State), s.job = some p → TakesHalt s →
    s.track.base < p.trackLen → p.trackLen ≤ 128 → p.rejectPos < p.trackLen →
    let t := haltEntry c s
    Halted c s t ∧ SameChain s t ∧ SamePockets s t ∧ t.print.window = [] ∧
    (∀ n < p.rejectPos, ∀ k, t.track.pocketAt ((t.track.base + n) % p.trackLen) = some k →
      k.state ≠ .live) ∧
    (∀ n < p.trackLen, ∀ k, s.track.pocketAt ((s.track.base + n) % p.trackLen) = some k →
      (p.rejectPos ≤ n ∨ k.state ≠ .live) →
      (t.track.pocketAt ((t.track.base + n) % p.trackLen)).map (·.state) = some k.state) ∧
    (∀ n < p.rejectPos, ∀ k, s.track.pocketAt ((s.track.base + n) % p.trackLen) = some k →
      k.state = .live → ∃ q, t.track.pocketAt ((t.track.base + n) % p.trackLen) = some q ∧
        q.state = .faulted ∧
        q.fault = some { cause := .suspect, station := none, suspect := true })

/-- An operator drain ends in PAUSED when no pocket on the track is LIVE or FAULTED, with its stop cause kept
and run enable off (R174). FILE_END sets file exhausted and moves a RUNNING line to an END drain (R36,
R175). An END drain with file exhausted and no page open ends in COMPLETE (R175). Where its condition does
not hold, each of these commands changes nothing (log 2). -/
def Obligations.DrainsAndTheEndOfTheJob : Prop :=
  ∀ s : State,
    (let ends := s.line.state = .draining ∧ s.line.drain = some .operator ∧
        ∀ j : Fin 128, ∀ k ∈ s.track.pocketAt j.val, k.state ≠ .live ∧ k.state ≠ .faulted
     (¬ ends → exec .drainEnd s = .next s) ∧
     (ends → ∃ t, exec .drainEnd s = .next t ∧ Paused s.line.stop s t ∧ Counted .pauses s t ∧
       SameButPaused t s)) ∧
    (let due := s.job ≠ none ∧ s.fetcher.endSeen = true ∧ s.staging = [] ∧
        s.line.fileExhausted = false
     (¬ due → exec .fileEnd s = .next s) ∧
     (due → ∃ t, exec .fileEnd s = .next t ∧
       (s.line.state ≠ .running → t.line = { s.line with fileExhausted := true }) ∧
       (s.line.state = .running → s.fetcher.pages ≠ [] → t.line = { s.line with
         fileExhausted := true, state := .draining, drain := some .endOfFile, stop := .none }) ∧
       (s.line.state = .running → s.fetcher.pages = [] → t.line = { s.line with
         fileExhausted := true, state := .complete, drain := none, stop := .none,
         runEnable := false }) ∧ SameButPaused t s)) ∧
    (let complete := s.line.state = .draining ∧ s.line.drain = some .endOfFile ∧
        s.line.fileExhausted = true ∧ s.fetcher.pages = []
     (¬ complete → exec .jobComplete s = .next s) ∧
     (complete → ∃ t, exec .jobComplete s = .next t ∧
       t.line = { s.line with state := .complete, drain := none, runEnable := false } ∧
       (LinkOpen s → t.link.attention.getLsbD 10 = true) ∧ SameButSettled { t with line := s.line } s))

/-- A resolved front bundle closes with the DONE_WAITING bundles behind it (R160): COMPLETE where all its
subscribers were delivered, else SHORT (R162, R166), counted, with BUNDLE_CLOSED, and with BUNDLE_EJECT and
TRAY_BREAK as R161 gives, and its report is written into the record that opened it (R44). A page that
meets the three conditions of R45 is written CLOSED and leaves the list, and the open count, the closed
count and the last closed sequence are written. Where there is none, neither command changes anything
(log 2). Which fields of a report share one write is the model's choice (log 50). -/
def Obligations.BundlesAndPagesClose : Prop :=
  (∀ (w : Word) (s : State),
    ((∀ b ∈ s.bundles.head?, b.resolved ≠ b.size) → exec (.bundleClose w) s = .next s) ∧
    (∀ b rest, s.bundles = b :: rest → b.resolved = b.size →
      (s.bundles.map Bundle.ordinal).Nodup → (s.stacker.pulse = none → s.stacker.held = []) →
      ∃ t, exec (.bundleClose w) s = .next t ∧
        t.bundles = rest.dropWhile (fun c => decide (c.state = .doneWaiting)) ∧
        (∃ more, t.stacker.pulse.toList ++ t.stacker.held =
          s.stacker.pulse.toList ++ s.stacker.held ++
            ((if 0 < b.delivered then [.bundleEject] else []) ++
              (if b.trayEnd then [.trayBreak] else [])) ++ more) ∧
        ((∀ c ∈ rest.head?, c.state ≠ .doneWaiting) →
          Counted (if b.delivered = b.size then .bundlesComplete else .bundlesShort) s t) ∧
        (LinkOpen s → t.link.attention.getLsbD 3 = true) ∧
        (∀ q, pageAt b.pageSlot s = some q → LinkOpen s → ∃ before more, t.sent = s.sent ++ before ++
          reportWrites q b w (if b.delivered = b.size then .complete else .short) ++ more) ∧
        SameButBundles t s)) ∧
  (∀ s : State,
    (settledPage s = none → exec .pageClose s = .next s) ∧
    (∀ q, settledPage s = some q →
      q.final = q.count ∧ q.bundlesOpen = 0 ∧ q.tailRole = false ∧ q ∈ s.fetcher.pages ∧
      ∃ t, exec .pageClose s = .next t ∧
        t.fetcher.pages = s.fetcher.pages.filter (fun r => r.slot ≠ q.slot) ∧
        t.fetcher.closedCount = s.fetcher.closedCount + 1 ∧ t.fetcher.lastClosed = q.sequence ∧
        (LinkOpen s → t.link.attention.getLsbD 1 = true ∧ ∃ more, t.sent = s.sent ++
          [.write (q.address + 0x10) (leBytes 1 2),
           .write (controlBlock s + 0x220) (leBytes 2 t.fetcher.pages.length),
           .write (controlBlock s + 0x224) (leBytes 4 (s.fetcher.closedCount + 1)),
           .write (controlBlock s + 0x228) (leBytes 4 q.sequence)] ++ more) ∧
        t.wrap = s.wrap ∧ SameButPaused t s))

/-! ## The Page Fetcher -/

/-- In WAITING with the conditions of R27 holding the fetcher proceeds: the first page, or the held link, is
checked (R29) and its header read in FETCHING, counted in PAGES_READ (R30), or the link refused; with no
link held the link word of the source is read (R28). In POLLING the link word is read again. Where the
conditions do not hold nothing begins. One read at a time is the model's choice (log 12). -/
def Obligations.FetchStartAndLinkPoll : Prop :=
  ∀ (p : Profile) (s : State), s.job = some p → linkReading s = false →
    (∀ a, s.fetcher.state = .waiting → fetchReady s = true →
      (s.fetcher.source = .first a ∨
        (∃ b, s.fetcher.source = .page b) ∧ s.fetcher.heldLink = a ∧ a ≠ 0) →
      ∃ t, exec .fetchStart s = .next t ∧ SameButFetcher t s ∧
        (pageAddressOk p.windowBase p.windowLimit a = true → t.fetcher.state = .fetching ∧
          t.fetcher.fetch = some { address := a, header := none } ∧ Counted .pagesRead s t ∧
          t.link.outstanding = s.link.outstanding ++ [.pageHeader] ∧
          (LinkOpen s → ∃ e, t.sent = s.sent ++ e ++ [.read a 64])) ∧
        (pageAddressOk p.windowBase p.windowLimit a = false → t.fetcher.state = .linkRefused ∧
          t.fetcher.refusedShown = a ∧ t.fetcher.heldLink = 0 ∧
          t.link.outstanding = s.link.outstanding ∧ NotCounted .pagesRead s t ∧
          (LinkOpen s → t.link.attention.getLsbD 2 = true))) ∧
    (∀ b, s.fetcher.state = .waiting → fetchReady s = true → s.fetcher.source = .page b →
      s.fetcher.heldLink = 0 →
      ∃ t, exec .fetchStart s = .next t ∧ SameButLink t s ∧
        t.link.outstanding = s.link.outstanding ++ [.linkWord] ∧
        (LinkOpen s → t.sent = s.sent ++ [.read b 8])) ∧
    (s.fetcher.state = .waiting → fetchReady s = false → exec .fetchStart s = .next s) ∧
    (∀ b, s.fetcher.state = .polling → fetchReady s = true → s.fetcher.source = .page b →
      ∃ t, exec .linkPoll s = .next t ∧ SameButLink t s ∧
        t.link.outstanding = s.link.outstanding ++ [.linkWord] ∧
        (LinkOpen s → t.sent = s.sent ++ [.read b 8])) ∧
    ((s.fetcher.state ≠ .polling ∨ fetchReady s = false) → exec .linkPoll s = .next s)

/-- A link word read by the fetcher itself (R28): 0 leads to POLLING; a nonzero word becomes the held link and
the page it names is checked and fetched, or the link refused (R29); while the conditions of R27 do not
hold the fetcher waits with the word held. The completion of a read that was dropped, or of a kind that no
read awaits, changes nothing, and that of an abandoned read only ends it, whatever it carries (R26, R30,
R192, log 6). -/
def Obligations.LinkWordsAreTaken : Prop :=
  (∀ (data : List Byte) (s : State),
    let OnlyEnds := fun (kind : ReadKind) (completion : ReadOrigin → Instr) =>
      exec (completion .dropped) s = .next s ∧
      (kind ∉ s.link.outstanding → exec (completion .awaited) s = .next s) ∧
      ∃ t, exec (completion .abandoned) s = .next t ∧
        t = { s with link := { s.link with abandoned := s.link.abandoned.erase kind } }
    OnlyEnds .linkWord (fun o => .linkReadDone ⟨o, data⟩) ∧
    OnlyEnds .pageHeader (fun o => .headerReadDone ⟨o, data⟩) ∧
    OnlyEnds .pageRecords (fun o => .recordsReadDone ⟨o, data⟩) ∧
    OnlyEnds .profile (fun o => .profileReadDone ⟨o, data⟩) ∧
    OnlyEnds .requestSection (fun o => .requestSectionReadDone ⟨o, data⟩)) ∧
  (∀ (p : Profile) (data : List Byte) (s : State), s.job = some p →
    (∀ v, .linkWord ∈ s.link.outstanding →
      retryingLink s = false → fieldAt data 0 8 = v →
      (s.fetcher.state = .waiting ∨ s.fetcher.state = .polling) →
      ∃ t, exec (.linkReadDone ⟨.awaited, data⟩) s = .next t ∧ SameButSettled t s ∧
        (fetchReady s = true → v = 0 → t.fetcher.state = .polling ∧ t.fetcher.heldLink = 0 ∧
          t.link.outstanding = s.link.outstanding.erase .linkWord) ∧
        (fetchReady s = true → v ≠ 0 → pageAddressOk p.windowBase p.windowLimit v = true →
          t.fetcher.state = .fetching ∧ t.fetcher.heldLink = v ∧
          t.fetcher.fetch = some { address := v, header := none } ∧ Counted .pagesRead s t ∧
          t.link.outstanding = s.link.outstanding.erase .linkWord ++ [.pageHeader]) ∧
        (fetchReady s = true → v ≠ 0 → pageAddressOk p.windowBase p.windowLimit v = false →
          t.fetcher.state = .linkRefused ∧ t.fetcher.refusedShown = v) ∧
        (fetchReady s = false → t.fetcher.state = .waiting ∧ t.fetcher.heldLink = v)))

/-- A page header is checked in the order of R31: STATE, SEQUENCE, COUNT, EXTENT. A header that passes has the
request halves of its records read (R30). One that fails is refused and held: PAGE_HELD with the expected
sequence shown, PAGES_REFUSED counted. In both cases every file position value, the Open Page List and the
Staging Queue are as they were (R30, R34).
The page state, the cause and the record index are written into it in one write, then the final count; that
grouping is the model's choice (log 50). -/
def Obligations.HeadersAreChecked : Prop :=
  ∀ (p : Profile) (data : List Byte) (f : Fetch) (s : State), s.job = some p →
    .pageHeader ∈ s.link.outstanding → s.fetcher.state = .fetching →
    s.fetcher.fetch = some f → (∀ r ∈ s.request, r.phase = .handed) →
    let h := parseHeader data
    let failed : Option RefusalCause :=
      if h.pageState ≠ 0 ∧ h.pageState ≠ 3 then some .state
      else if h.sequence ≠ s.fetcher.expected then some .sequence
      else if h.count < 1 ∨ 32 < h.count then some .count
      else if p.windowLimit < f.address + 64 + 256 * h.count then some .extent
      else none
    ∃ t, exec (.headerReadDone ⟨.awaited, data⟩) s = .next t ∧ SameButSettled t s ∧
      t.fetcher.source = s.fetcher.source ∧ t.fetcher.heldLink = s.fetcher.heldLink ∧
      t.fetcher.expected = s.fetcher.expected ∧ t.fetcher.lastSerial = s.fetcher.lastSerial ∧
      t.fetcher.skippedSince = s.fetcher.skippedSince ∧ t.fetcher.tail = s.fetcher.tail ∧
      t.fetcher.orphan = s.fetcher.orphan ∧ t.fetcher.nextOrdinal = s.fetcher.nextOrdinal ∧
      t.fetcher.endSeen = s.fetcher.endSeen ∧ t.fetcher.pages = s.fetcher.pages ∧
      (failed = none → t.fetcher.state = .fetching ∧
        t.fetcher.fetch = some { f with header := some h } ∧
        t.link.outstanding = s.link.outstanding.erase .pageHeader ++ [.pageRecords]) ∧
      (∀ c, failed = some c → t.fetcher.state = .pageHeld ∧ t.fetcher.fetch = none ∧
        t.fetcher.heldShown = s.fetcher.expected ∧ Counted .pagesRefused s t ∧
        t.fetcher.held = some { address := f.address, sequence := s.fetcher.expected,
                                count := h.count, ends := h.ends, cause := c } ∧
        (LinkOpen s → t.link.attention.getLsbD 2 = true ∧ ∃ more, t.sent = s.sent ++
          [.write (f.address + 0x10) (leBytes 1 3 ++ leBytes 1 c.code ++ leBytes 1 255),
           .write (f.address + 0x14) (leBytes 2 0)] ++ more))

/-- The records of a page whose header has passed (R32 to R35). A failing check refuses the page with its cause
and record slot, nothing is staged, and every file position value is as it was. A page that passes is
written LOADED; in orphan mode its records before the first that opens a bundle are withdrawn: each is
written NOT_PRODUCED as a record never fed, raises the final count of the page and is counted (R43); the
others are staged in slot order behind those staged before. It rises the expected sequence by 1, becomes the
link source with its link held, and counts in PAGES_LOADED; with END it leads to ENDED, and where nothing
is staged the file is exhausted (R36). A page whose records were all withdrawn and that carries END is closed
at once (R45). A link that the fetcher finds fails the checks of R29 at once is refused, and held no
longer. Which fields share one write is the model's choice (log 50). -/
def Obligations.RecordsAreStaged : Prop :=
  ∀ (p : Profile) (data : List Byte) (a : Address) (h : PageHeader) (s : State), s.job = some p →
    .pageRecords ∈ s.link.outstanding → s.fetcher.state = .fetching →
    s.fetcher.fetch = some { address := a, header := some h } →
    (∀ r ∈ s.request, r.phase = .handed) →
    (∀ c slot, checkPage p s.fetcher h (parseRecords data h.count) = .error (c, slot) →
      ∃ t, exec (.recordsReadDone ⟨.awaited, data⟩) s = .next t ∧ SameButSettled t s ∧
        t.fetcher.state = .pageHeld ∧ t.fetcher.source = s.fetcher.source ∧
        t.fetcher.heldLink = s.fetcher.heldLink ∧ t.fetcher.expected = s.fetcher.expected ∧
        t.fetcher.lastSerial = s.fetcher.lastSerial ∧
        t.fetcher.skippedSince = s.fetcher.skippedSince ∧ t.fetcher.tail = s.fetcher.tail ∧
        t.fetcher.orphan = s.fetcher.orphan ∧ t.fetcher.nextOrdinal = s.fetcher.nextOrdinal ∧
        t.fetcher.endSeen = s.fetcher.endSeen ∧ t.fetcher.pages = s.fetcher.pages ∧
        Counted .pagesRefused s t ∧
        (LinkOpen s → ∃ more, t.sent = s.sent ++
          [.write (a + 0x10) (leBytes 1 3 ++ leBytes 1 c.code ++ leBytes 1 slot),
           .write (a + 0x14) (leBytes 2 0)] ++ more)) ∧
    (∀ pos, checkPage p s.fetcher h (parseRecords data h.count) = .ok pos →
      0 < h.count →
      let records := parseRecords data h.count
      let orphans := if s.fetcher.orphan = true
        then (records.takeWhile fun r => decide (r.size = 0)).length else 0
      ∃ t, exec (.recordsReadDone ⟨.awaited, data⟩) s = .next t ∧ t.profile = s.profile ∧
        (∃ more, t.staging = s.staging ++ more ∧
          more.map Staged.serial = (records.drop orphans).map RecordFields.serial ∧
          more.map Staged.recordSlot = (List.range h.count).drop orphans ∧
          more.map Staged.checkValue = (records.drop orphans).map (fun r =>
            checkValue p.jobTag r.serial r.addressLines)) ∧
        CountedTimes orphans .notProduced s t ∧
        t.fetcher.orphan = (s.fetcher.orphan && decide (orphans = h.count)) ∧
        t.fetcher.expected = s.fetcher.expected + 1 ∧ t.fetcher.source = .page a ∧
        (t.fetcher.state ≠ .linkRefused → t.fetcher.heldLink = h.link) ∧
        (t.fetcher.state = .linkRefused → t.fetcher.heldLink = 0 ∧
          t.fetcher.refusedShown = h.link ∧ h.ends = false ∧
          pageAddressOk p.windowBase p.windowLimit h.link = false) ∧
        t.fetcher.lastSerial = pos.before ∧ t.fetcher.endSeen = (s.fetcher.endSeen || h.ends) ∧
        (h.ends = true → t.fetcher.state = .ended) ∧ t.fetcher.fetch.isSome = decide (
          t.fetcher.state = .fetching) ∧ Counted .pagesLoaded s t ∧
        (t.staging ≠ [] → s.line.state ≠ .draining → t.line = s.line) ∧
        (t.staging = [] → t.fetcher.endSeen = true → t.line.fileExhausted = true) ∧
        ((∃ n < 16, ∀ q ∈ s.fetcher.pages, q.slot ≠ n) →
          ((orphans < h.count ∨ h.ends = false) → ∃ q ∈ t.fetcher.pages, q.address = a ∧
            q.sequence = h.sequence ∧ q.count = h.count ∧ q.final = orphans ∧ q.ends = h.ends) ∧
          (orphans = h.count → h.ends = true → (∀ q ∈ s.fetcher.pages, ∀ r ∈ s.fetcher.pages,
            q.tailRole = true → r.tailRole = true → q.slot = r.slot) →
            t.fetcher.lastClosed = h.sequence) ∧
          (LinkOpen s → ∃ more, t.sent = s.sent ++
            [.write (a + 0x10) (leBytes 1 1 ++ leBytes 1 0 ++ leBytes 1 255),
             .write (a + 0x14) (leBytes 2 0)] ++
            ((List.range orphans).flatMap fun k => neverFedWrites a k (k + 1)) ++ more)))

/-! ## The link and the scanner -/

/-- The first failure of a host memory access (R26): an error completion or a timeout of a read that the part
waits for, an abandoned one among them (log 6), or the link leaving its active state with an access
pending. Access stops: LINK_DOWN, no read outstanding, nothing waiting, LINK_FAULT set, and a line that
takes a halt cause halts with LINK (R176, R179). A later failure changes nothing further. -/
def Obligations.TheFirstFailureStopsAccess : Prop :=
  ∀ (kind : ReadKind) (s : State),
    let Stopped := fun t : State =>
      t.fetcher.state = .linkDown ∧ t.fetcher.fetch = none ∧ t.link.outstanding = [] ∧
      t.link.waiting = [] ∧ t.link.attention.getLsbD 11 = true ∧
      (TakesHalt s → Halted .link s t ∧ t.link.attention.getLsbD 9 = true) ∧
      (¬ TakesHalt s → t.line = s.line) ∧ t.profile = s.profile ∧ t.stations = s.stations ∧
      t.inputs = s.inputs ∧ SameChain s t ∧ SamePockets s t
    (s.fetcher.state ≠ .linkDown →
      (kind ∈ s.link.outstanding →
        ∃ t, exec (.readErrorCompletion ⟨.awaited, kind⟩) s = .next t ∧ Stopped t) ∧
      (kind ∈ s.link.abandoned →
        ∃ t, exec (.readErrorCompletion ⟨.abandoned, kind⟩) s = .next t ∧ Stopped t) ∧
      (kind ∈ s.link.outstanding ∨ kind ∈ s.link.abandoned →
        ∃ t, exec (.readTimeout kind) s = .next t ∧ Stopped t)) ∧
    (s.fetcher.state ≠ .linkDown → s.link.active = true →
      (s.link.outstanding ≠ [] ∨ s.link.abandoned ≠ [] ∨ s.link.waiting ≠ []) →
      ∃ t, exec .pcieLinkInactive s = .next t ∧ Stopped t ∧ t.link.active = false) ∧
    ((s.link.active = false ∨
        (s.link.outstanding = [] ∧ s.link.abandoned = [] ∧ s.link.waiting = []) ∨
        s.fetcher.state = .linkDown) →
      ∃ t, exec .pcieLinkInactive s = .next t ∧
        t = { s with link := { s.link with active := false } }) ∧
    (∀ origin, s.fetcher.state = .linkDown →
      exec (.readErrorCompletion ⟨origin, kind⟩) s = .next s ∧ exec (.readTimeout kind) s = .next s) ∧
    exec (.readErrorCompletion ⟨.dropped, kind⟩) s = .next s ∧
    (kind ∉ s.link.outstanding → exec (.readErrorCompletion ⟨.awaited, kind⟩) s = .next s) ∧
    (kind ∉ s.link.abandoned → exec (.readErrorCompletion ⟨.abandoned, kind⟩) s = .next s) ∧
    (kind ∉ s.link.outstanding → kind ∉ s.link.abandoned → exec (.readTimeout kind) s = .next s)

/-- The link becoming active sends the writes and reads that waited, in the order in which they were handed
over, whatever ENABLE is by then: that what waits is still sent with ENABLE clear is the model's reading
(R25, log 5, log 22). Each attention bit that waited behind them is set, and no other (R186). An
interrupt address configured is kept (R187). The scan timer reads the request section in one read while
ENABLE is set and access has not stopped (R184). -/
def Obligations.TheLinkAndTheScanTimer : Prop :=
  ∀ s : State,
    (∃ t, exec .pcieLinkActive s = .next t ∧ t.link.active = true ∧ t.link.waiting = [] ∧
      SameButLink t { s with link := { s.link with active := true } } ∧
      t.link.outstanding = s.link.outstanding ∧
      t.sent.filter (fun m => match m with
          | .interrupt _ _ => false
          | _ => true) =
        s.sent.filter (fun m => match m with
          | .interrupt _ _ => false
          | _ => true) ++
        s.link.waiting.filterMap (fun i => match i with
          | .write a d => some (Message.write a d)
          | .read a n => some (Message.read a n)
          | .attention _ => none) ∧
      (∀ d : Attention, t.link.attention.getLsbD d.bit =
        (s.link.attention.getLsbD d.bit || decide (LinkItem.attention d ∈ s.link.waiting))) ∧
      (∀ out : List Message, s.link.waiting.map (fun i => match i with
          | .write a d => some (Message.write a d)
          | .read a n => some (Message.read a n)
          | .attention _ => none) = out.map some →
        t.sent = s.sent ++ out ∧ t.counters = s.counters ∧
        t.link.attention = s.link.attention)) ∧
    (∀ a, ∃ t, exec (.interruptAddressConfig a) s = .next t ∧
      t = { s with link := { s.link with interruptAddress := some a } }) ∧
    ((s.link.enable = false ∨ s.fetcher.state = .linkDown) → exec .scanTimer s = .next s) ∧
    (s.link.enable = true → s.fetcher.state ≠ .linkDown →
      ∃ t, exec .scanTimer s = .next t ∧ SameButLink t s ∧
        t.link.outstanding = s.link.outstanding ++ [.requestSection] ∧
        t.link.attention = s.link.attention ∧ t.counters = s.counters ∧
        (LinkOpen s → t.sent = s.sent ++ [.read (controlBlock s + 0x100) 128]) ∧
        (s.link.active = false →
          t.link.waiting = s.link.waiting ++ [.read (controlBlock s + 0x100) 128]))

/-- A scan with no request in progress takes the lowest-indexed slot whose state reads POSTED: its copy becomes
the request in progress, and TAKEN and a cleared result are written (R183, R184). With none POSTED, or with a
request in progress, it takes nothing; nor does it where ENABLE was cleared while the section was being read,
which is the model's reading of R191 (DEDUCED, log 22). That "a request in progress" is judged when the read
completes, and not when the timer expires, is the model's choice (DESIGN CHOICE, log 48); that TAKEN and the
result are two writes is so too (log 50). A request of no known code completes UNKNOWN with result word 0. -/
def Obligations.TheScannerTakesTheLowestSlot : Prop :=
  (∀ (data : List Byte) (s : State), .requestSection ∈ s.link.outstanding →
    (((∀ n : Fin 4, byteAt data (32 * n.val) ≠ 1) ∨ s.request ≠ none ∨ s.link.enable = false) →
      ∃ t, exec (.requestSectionReadDone ⟨.awaited, data⟩) s = .next t ∧
        t = { s with link := { s.link with
          outstanding := s.link.outstanding.erase .requestSection } }) ∧
    (∀ n : Fin 4, byteAt data (32 * n.val) = 1 → (∀ m < n, byteAt data (32 * m.val) ≠ 1) →
      s.request = none → s.link.enable = true →
      ∃ t, exec (.requestSectionReadDone ⟨.awaited, data⟩) s = .next t ∧
        t.request = some {
          slot := n, code := fieldAt data (32 * n.val + 2) 2,
          hostTag := BitVec.ofNat 32 (fieldAt data (32 * n.val + 4) 4),
          param0 := fieldAt data (32 * n.val + 8) 4, param1 := fieldAt data (32 * n.val + 12) 4,
          param2 := fieldAt data (32 * n.val + 16) 4,
          param3 := fieldAt data (32 * n.val + 20) 4, phase := .handed } ∧
        SameButLink { t with request := none } s ∧ t.counters = s.counters ∧
        (LinkOpen s → t.sent = s.sent ++ [.write (slotAddress s n) (leBytes 1 2),
          .write (slotAddress s n + 1) (leBytes 1 0)]))) ∧
  (∀ (r : Request) (s : State), s.request = some r → r.phase = .handed →
    ((r.code = 0 ∨ 15 < r.code) → ∃ t, exec .unknownRequest s = .next t ∧
      Completed r .unknown 0 s t ∧ SameButDone t s) ∧
    (1 ≤ r.code → r.code ≤ 15 → exec .unknownRequest s = .next s))

/-! ## Requests to the line -/

/-- LOAD_JOB in IDLE and COMPLETE reads the profile section, in one read of 256 bytes at the anchor (R24; that it
is one read is the model's reading: DEDUCED, log 29); in every other state it completes BAD_STATE with
the line state code (R169). A profile that fails a check completes it BAD_VALUE with the index of the first
check that fails, and every block is left as it was (R169, R170). -/
def Obligations.LoadJobReadsTheProfile : Prop :=
  ∀ (r : Request) (s : State),
    (Asks 1 r s → (s.line.state = .idle ∨ s.line.state = .complete) →
      s.fetcher.state ≠ .linkDown →
      ∃ t, exec .loadJob s = .next t ∧ t.request = some { r with phase := .readingProfile } ∧
        t.link.outstanding = s.link.outstanding ++ [.profile] ∧
        SameButLink { t with request := s.request } s ∧ t.counters = s.counters ∧
        (LinkOpen s → t.sent = s.sent ++ [.read (controlBlock s) 256])) ∧
    (Asks 1 r s → s.line.state ≠ .idle → s.line.state ≠ .complete →
      ∃ t, exec .loadJob s = .next t ∧
        Completed r .badState (BitVec.ofNat 32 s.line.state.code) s t ∧ SameButDone t s) ∧
    (∀ (data : List Byte) (index : Nat), s.request = some r → r.phase = .readingProfile →
      .profile ∈ s.link.outstanding → (parseProfile data).firstFailure = some index →
      ∃ t, exec (.profileReadDone ⟨.awaited, data⟩) s = .next t ∧
        Completed r .badValue (BitVec.ofNat 32 index) s t ∧ SameButDone t s)

/-- A valid profile starts a job in one event (R171): READY with no cause, every block at the values its
chapter gives, every counter of both banks and the snapshot sequence 0, and the page chain begun, with
PAGES_READ at 1 where a header read begins (R30), before the request completes DONE_OK with result word
0 (R169): its slot is answered after the writes of the job, and its own count brings REQUESTS to 1
(R185, R189). INTERRUPTS is left out: it counts the messages sent after the zeroing. That a
station not fitted has its counts and its fault cause cleared too is the model's choice (log 42). -/
def Obligations.AValidProfileStartsAJob : Prop :=
  ∀ (r : Request) (data : List Byte) (s : State), s.request = some r → r.phase = .readingProfile →
    .profile ∈ s.link.outstanding → s.fetcher.state ≠ .linkDown →
    let p := parseProfile data
    p.firstFailure = none →
    ∃ t, exec (.profileReadDone ⟨.awaited, data⟩) s = .next t ∧ t.request = none ∧
      (LinkOpen s → ∃ effect, SlotAnswered r .doneOk 0 effect s t) ∧ t.profile = some p ∧
      t.line = { State.reset.line with state := .ready } ∧
      (t.track.base = 0 ∧ t.track.nextSerial = 1 ∧ t.track.accumulator = 0 ∧
        t.track.deficit = 0 ∧ ∀ i, (∃ k, t.track.pocketAt i = some k ∧ k.serial = 0 ∧
          k.kind = .gap ∧ k.state = .empty ∧ k.subscriber = none) ↔ i < p.trackLen) ∧
      (t.staging = [] ∧ t.remakes = [] ∧ t.bundles = [] ∧ t.gate = .pass ∧
        ∀ j, contextAt j t = none) ∧
      (t.fetcher.pages = [] ∧ t.fetcher.expected = 1 ∧ t.fetcher.nextOrdinal = 1 ∧
        t.fetcher.source = .first p.firstPage ∧ t.fetcher.lastSerial = none ∧
        t.fetcher.endSeen = false ∧
        (linkReading s = false → t.fetcher.state = .fetching ∧
          t.fetcher.fetch = some { address := p.firstPage, header := none })) ∧
      (t.intake.window = none ∧ t.intake.holds = { Holds.empty with line := true, noHead := true }) ∧
      (∀ n : Fin 12, let e := t.stations.get n; let q := p.stations.get n
        e.fitted = q.isFitted ∧ e.position = q.position ∧ e.thickness = q.thickness ∧
        e.missLimit = q.missLimit ∧ e.doubleLimit = q.doubleLimit ∧
        e.state = (if q.isFitted then .online else .offline) ∧ e.misses = 0 ∧ e.doubles = 0 ∧
        e.cause = none ∧ e.lastState = (s.stations.get n).lastState) ∧
      (t.gauge.state = (if p.gaugeFitted = 1 then .active else .off) ∧
        t.gauge.z16 = 16 * p.initialZero ∧ t.gauge.zRef = 16 * p.initialZero) ∧
      (∀ h, (t.headEntry h).state = (if p.headFitted h then .standby else .off) ∧
        (t.headEntry h).purges = 0 ∧ (t.headEntry h).run = 0) ∧
      (t.print.readBacks = [] ∧ t.print.window = [] ∧ t.wrap = State.reset.wrap) ∧
      (t.counters.total.get 62 = 1 ∧ t.counters.interval.get 62 = 1 ∧
        ∀ c : LineCounter, c ≠ .requests → c ≠ .interrupts → c ≠ .pagesRead →
          t.counters.total.get c.index = 0 ∧ t.counters.interval.get c.index = 0) ∧
      (∀ i, t.counters.stationTotal.get i = 0 ∧ t.counters.stationInterval.get i = 0) ∧
      t.counters.snapshots = 0 ∧
      (let read : Word := if linkReading s then 0 else 1
       t.counters.total.get 2 = read ∧ t.counters.interval.get 2 = read) ∧
      t.inputs = s.inputs ∧ t.stacker = s.stacker ∧ t.pending = s.pending

/-- START (R172): in READY and PAUSED with its seven conditions holding the line enters RUNNING, or DRAINING in an
END drain where the file is exhausted, with no cause and run enable on, a head becomes ACTIVE where none is
(R106), STARTS is counted, and the request completes DONE_OK with the code of the new state. An END drain
that finds no page open ends at once in COMPLETE, whose code the result word then is (R175, log 15). A
line that runs with an empty Staging Queue starves (R64). Else the request completes BAD_STATE with the
sum of the weights of the conditions that fail, or with 0 in another state. -/
def Obligations.StartRunsTheLine : Prop :=
  ∀ (r : Request) (s : State), Asks 2 r s →
    let weights :=
      (if s.inputs.guardClosed then 0 else 1) + (if s.inputs.driveReady then 0 else 2) +
      (if s.inputs.stackerReady then 0 else 4) + (if s.wrap.sealOk then 0 else 8) +
      (if (s.stations.get 0).state = .online then 0 else 16) +
      (if (s.stations.get 11).state = .online then 0 else 32) +
      (if s.print.headA.state = .active ∨ s.print.headA.state = .standby ∨
        s.print.headB.state = .active ∨ s.print.headB.state = .standby then 0 else 64)
    ((s.line.state = .ready ∨ s.line.state = .paused) → weights = 0 →
      ∃ t, exec .start s = .next t ∧ Counted .starts s t ∧ headActive t = true ∧
        t.wrap = { s.wrap with runaway := false } ∧
        (headActive s = true → t.print = s.print) ∧
        (headActive s = false → s.print.headA.state = .standby →
          t.print = { s.print with headA := { s.print.headA with state := .active } }) ∧
        (s.line.fileExhausted = false → Completed r .doneOk 2 s t ∧
          t.line = { s.line with state := .running, drain := none, stop := .none, halt := .none,
                                 runEnable := true }) ∧
        (s.line.fileExhausted = true → s.fetcher.pages ≠ [] → Completed r .doneOk 3 s t ∧
          t.line = { s.line with state := .draining, drain := some .endOfFile, stop := .none,
                                 halt := .none, runEnable := true }) ∧
        (s.line.fileExhausted = true → s.fetcher.pages = [] → Completed r .doneOk 6 s t ∧
          t.line = { s.line with state := .complete, drain := none, stop := .none, halt := .none,
                                 runEnable := false } ∧
          (LinkOpen s → t.link.attention.getLsbD 10 = true)) ∧
        (s.job ≠ none → s.line.fileExhausted = false → s.staging = [] →
          s.intake.holds.starved = false → LinkOpen s → t.link.attention.getLsbD 8 = true) ∧
        SameButDone { t with line := s.line, wrap := s.wrap, print := s.print } s) ∧
    ((s.line.state = .ready ∨ s.line.state = .paused) → weights ≠ 0 →
      ∃ t, exec .start s = .next t ∧ Completed r .badState (BitVec.ofNat 32 weights) s t ∧
        SameButDone t s) ∧
    (s.line.state ≠ .ready → s.line.state ≠ .paused →
      ∃ t, exec .start s = .next t ∧ Completed r .badState 0 s t ∧ SameButDone t s)

/-- PAUSE (R173), DRAIN (R174) and CLEAR_HALT (R178), each in every line state. The two states in which a LINK
halt stands are left out of CLEAR_HALT here: it cannot be taken there (R179, log 20). -/
def Obligations.PauseDrainClearHalt : Prop :=
  ∀ (r : Request) (s : State),
    let code := BitVec.ofNat 32 s.line.state.code
    let weights := (if s.inputs.guardClosed then 0 else 1) +
      (if s.inputs.driveReady then 0 else 2) + (if s.inputs.stackerReady then 0 else 4)
    (Asks 3 r s → ∃ t, exec .pause s = .next t ∧
      ((s.line.state = .running ∨ s.line.state = .draining) → Completed r .doneOk 0 s t ∧
        Paused .request s t ∧ Counted .pauses s t ∧
        SameButDone { t with line := s.line } s) ∧
      (s.line.state = .paused → Completed r .doneOk 0 s t ∧ SameButDone t s) ∧
      (s.line.state ≠ .running → s.line.state ≠ .draining → s.line.state ≠ .paused →
        Completed r .badState code s t ∧ SameButDone t s)) ∧
    (Asks 4 r s → ∃ t, exec .drain s = .next t ∧
      ((s.line.state = .running ∨ s.line.state = .paused ∧ weights = 0) →
        Completed r .doneOk 0 s t ∧ Counted .drains s t ∧ t.line.stop = .drain ∧
        t.line.halt = (if s.line.state = .paused then .none else s.line.halt) ∧
        ((∀ j : Fin 128, ∀ k ∈ s.track.pocketAt j.val, k.state ≠ .live ∧ k.state ≠ .faulted) →
          t.line.state = .paused ∧ t.line.drain = none ∧ t.line.runEnable = false) ∧
        ((∃ j : Fin 128, ∃ k ∈ s.track.pocketAt j.val, k.state = .live ∨ k.state = .faulted) →
          t.line.state = .draining ∧ t.line.drain = some .operator ∧ t.line.runEnable = true) ∧
        SameButDone { t with line := s.line, wrap := s.wrap } s) ∧
      (s.line.state = .paused → weights ≠ 0 →
        Completed r .badState (BitVec.ofNat 32 weights) s t ∧ SameButDone t s) ∧
      (s.line.state = .draining → s.line.drain = some .operator →
        Completed r .doneOk 0 s t ∧ SameButDone t s) ∧
      (((s.line.state = .draining ∧ s.line.drain ≠ some .operator) ∨ s.line.state = .idle ∨
          s.line.state = .ready ∨ s.line.state = .halted ∨ s.line.state = .complete) →
        Completed r .badState code s t ∧ SameButDone t s)) ∧
    (Asks 5 r s → ∃ t, exec .clearHalt s = .next t ∧
      (s.line.state = .halted → s.line.halt ≠ .link → s.inputs.guardClosed = true →
        Completed r .doneOk 0 s t ∧
        t.line = { s.line with state := .paused, quickStop := false, stop := .none } ∧
        SameButDone { t with line := s.line } s) ∧
      (s.line.state = .halted → s.line.halt ≠ .link → s.inputs.guardClosed = false →
        Completed r .badState 1 s t ∧ SameButDone t s) ∧
      (s.line.state ≠ .halted → Completed r .badState 0 s t ∧ SameButDone t s))

/-- ABORT_JOB (R180): in READY, PAUSED, HALTED and COMPLETE every collection is emptied, every block takes its
IDLE values, the profile is discarded and the line enters IDLE with no cause; the request completes DONE_OK
with the number of records written NOT_PRODUCED. Before that it writes NOT_PRODUCED for each staged record and
for each fed record still PENDING, then the ABORTED report of each bundle in opening order, then CLOSED for
the pages (R46, R166). In IDLE, RUNNING and DRAINING it completes BAD_STATE with the
line state code. A LINK halt is left out: it cannot be taken there (R179, log 20). That each station keeps
its last STATE through the abort is the model's choice: R70 is silent on it (log 28). So are which fields share
one write (log 50), and the order of the records within each of the two steps that write them: R46 gives the
steps and no order in them (log 52). -/
def Obligations.AbortJobEmptiesTheLine : Prop :=
  ∀ (r : Request) (s : State), Asks 6 r s →
    ((s.line.state = .ready ∨ s.line.state = .paused ∨ s.line.state = .complete ∨
        s.line.state = .halted ∧ s.line.halt ≠ .link) → s.fetcher.state ≠ .linkDown →
      ∃ t, exec .abortJob s = .next t ∧ t.line = State.reset.line ∧ t.profile = none ∧
        Completed r .doneOk (BitVec.ofNat 32 (abortCount s)) s t ∧
        (t.staging = [] ∧ t.remakes = [] ∧ t.bundles = [] ∧ t.fetcher.pages = [] ∧
          t.gate = .pass ∧ t.fetcher.state = .off ∧ t.fetcher.fetch = none ∧
          ∀ j, contextAt j t = none) ∧
        (t.track.base = 0 ∧ t.track.nextSerial = 0 ∧ t.track.accumulator = 0 ∧
          t.track.deficit = 0 ∧ ∀ i, t.track.pocketAt i = none) ∧
        (t.intake.window = none ∧ t.intake.holds = .empty) ∧
        (∀ n : Fin 12, (t.stations.get n).state = .offline ∧ (t.stations.get n).misses = 0 ∧
          (t.stations.get n).doubles = 0 ∧ (t.stations.get n).cause = none ∧
          (t.stations.get n).lastState = (s.stations.get n).lastState) ∧
        (t.gauge.state = .off ∧ t.print.headA.state = .off ∧ t.print.headB.state = .off ∧
          t.print.readBacks = [] ∧ t.print.window = [] ∧ t.wrap = State.reset.wrap) ∧
        t.stacker = s.stacker ∧ t.inputs = s.inputs ∧ t.pending = s.pending ∧
        (LinkOpen s → ∃ rest, t.sent = s.sent ++ abortOutcomes s ++ rest ∧
          (abortReports s).Sublist rest) ∧
        (s.bundles ≠ [] → LinkOpen s → t.link.attention.getLsbD 3 = true)) ∧
    ((s.line.state = .idle ∨ s.line.state = .running ∨ s.line.state = .draining) →
      ∃ t, exec .abortJob s = .next t ∧
        Completed r .badState (BitVec.ofNat 32 s.line.state.code) s t ∧ SameButDone t s)

/-- RETRY_PAGE (R40). Out of its fetch states, and with no job loaded, it completes BAD_STATE with a word
the entry does not give (log 7). During a fetch it waits for its end, and is carried out against the fetch
state that the fetch left (R30): it retries a page refused then, and completes BAD_STATE where the page was
accepted. It reads the link word of the link source again, or takes the first page address. A link word of 0
leads to POLLING, and on to WAITING where the conditions of R27 do not hold, and completes it DONE_OK with
result word 3; an address that fails the checks of R29 leads to LINK_REFUSED and completes it with 2; else
the page is fetched, and the request completes with 1 where the page is refused again and with 0 where it is
accepted. The fetcher's own reads and refusals are as without a retry. That the slot's writes come behind a
read the fetcher then begins is the model's choice (log 51). -/
def Obligations.RetryPage : Prop :=
  (∀ (r : Request) (s : State), s.job = none → Asks 7 r s →
    ∃ t, exec .retryPage s = .next t ∧ (∃ w, Completed r .badState w s t) ∧
      SameButDone { t with freeCount := s.freeCount } s) ∧
  (∀ (p : Profile) (r : Request) (s : State), s.job = some p →
    (Asks 7 r s → ∃ t, exec .retryPage s = .next t ∧
      (s.fetcher.state = .fetching → t = { s with request := some { r with phase := .awaitingFetch } }) ∧
      (s.fetcher.state ≠ .fetching → s.fetcher.state ≠ .pageHeld → s.fetcher.state ≠ .linkRefused →
        (∃ w, Completed r .badState w s t) ∧ SameButDone { t with freeCount := s.freeCount } s) ∧
      (∀ a, (s.fetcher.state = .pageHeld ∨ s.fetcher.state = .linkRefused) →
        s.fetcher.source = .page a → t.request = some { r with phase := .retryLink } ∧
        t.link.outstanding = s.link.outstanding ++ [.linkWord] ∧ t.fetcher = s.fetcher ∧
        SameButLink { t with request := s.request } s) ∧
      (∀ a, (s.fetcher.state = .pageHeld ∨ s.fetcher.state = .linkRefused) →
        s.fetcher.source = .first a → pageAddressOk p.windowBase p.windowLimit a = true →
        t.request = some { r with phase := .retryFetch } ∧ t.fetcher.state = .fetching ∧
        t.fetcher.fetch = some { address := a, header := none } ∧
        (s.fetcher.state = .pageHeld → t.fetcher.held = none)) ∧
      (∀ a, (s.fetcher.state = .pageHeld ∨ s.fetcher.state = .linkRefused) →
        s.fetcher.source = .first a → pageAddressOk p.windowBase p.windowLimit a = false →
        Completed r .doneOk 2 s t ∧ t.fetcher.state = .linkRefused ∧ t.fetcher.refusedShown = a)) ∧
    (∀ data, s.request = some r → r.phase = .retryLink → .linkWord ∈ s.link.outstanding →
      (s.fetcher.state = .pageHeld ∨ s.fetcher.state = .linkRefused) →
      let v := fieldAt data 0 8
      ∃ t, exec (.linkReadDone ⟨.awaited, data⟩) s = .next t ∧
        (v = 0 → Completed r .doneOk 3 s t ∧ t.fetcher.heldLink = 0 ∧
          t.fetcher.state = (if fetchReady s then .polling else .waiting)) ∧
        (v ≠ 0 → pageAddressOk p.windowBase p.windowLimit v = false → Completed r .doneOk 2 s t ∧
          t.fetcher.state = .linkRefused ∧ t.fetcher.refusedShown = v) ∧
        (v ≠ 0 → pageAddressOk p.windowBase p.windowLimit v = true →
          t.request = some { r with phase := .retryFetch } ∧ t.fetcher.state = .fetching ∧
          t.fetcher.fetch = some { address := v, header := none } ∧ t.fetcher.heldLink = v ∧
          Counted .pagesRead s t)) ∧
    (∀ data f, s.request = some r → r.phase = .retryFetch → .pageHeader ∈ s.link.outstanding →
      s.fetcher.state = .fetching → s.fetcher.fetch = some f →
      checkHeader p s.fetcher f.address (parseHeader data) ≠ none →
      ∃ t, exec (.headerReadDone ⟨.awaited, data⟩) s = .next t ∧ Completed r .doneOk 1 s t ∧
        t.fetcher.state = .pageHeld ∧ Counted .pagesRefused s t) ∧
    (∀ data a h, s.request = some r → r.phase = .retryFetch → .pageRecords ∈ s.link.outstanding →
      s.fetcher.state = .fetching → s.fetcher.fetch = some { address := a, header := some h } →
      ∃ t, exec (.recordsReadDone ⟨.awaited, data⟩) s = .next t ∧
        (∀ c slot, checkPage p s.fetcher h (parseRecords data h.count) = .error (c, slot) →
          Completed r .doneOk 1 s t ∧ t.fetcher.state = .pageHeld ∧ Counted .pagesRefused s t) ∧
        (∀ pos, checkPage p s.fetcher h (parseRecords data h.count) = .ok pos →
          Completed r .doneOk 0 s t ∧ t.fetcher.state ≠ .pageHeld ∧ Counted .pagesLoaded s t)) ∧
    (let RefusedAndRetried := fun (kind : ReadKind) (t : State) => Counted .pagesRefused s t ∧
       (∀ b, s.fetcher.source = .page b → t.request = some { r with phase := .retryLink } ∧
         t.fetcher.state = .pageHeld ∧
         t.link.outstanding = s.link.outstanding.erase kind ++ [.linkWord]) ∧
       (∀ b, s.fetcher.source = .first b → pageAddressOk p.windowBase p.windowLimit b = true →
         t.request = some { r with phase := .retryFetch } ∧ t.fetcher.state = .fetching ∧
         t.fetcher.fetch = some { address := b, header := none } ∧ t.fetcher.held = none ∧
         Counted .pagesRead s t) ∧
       (∀ b, s.fetcher.source = .first b → pageAddressOk p.windowBase p.windowLimit b = false →
         Completed r .doneOk 2 s t ∧ t.fetcher.state = .linkRefused ∧ t.fetcher.refusedShown = b)
     s.request = some r → r.code = 7 → r.phase = .awaitingFetch → s.fetcher.state = .fetching →
     (∀ data f, .pageHeader ∈ s.link.outstanding → s.fetcher.fetch = some f →
       checkHeader p s.fetcher f.address (parseHeader data) ≠ none →
       ∃ t, exec (.headerReadDone ⟨.awaited, data⟩) s = .next t ∧
         RefusedAndRetried .pageHeader t) ∧
     (∀ data a h, .pageRecords ∈ s.link.outstanding →
       s.fetcher.fetch = some { address := a, header := some h } →
       ∃ t, exec (.recordsReadDone ⟨.awaited, data⟩) s = .next t ∧
         (∀ c slot, checkPage p s.fetcher h (parseRecords data h.count) = .error (c, slot) →
           RefusedAndRetried .pageRecords t) ∧
         (∀ pos, checkPage p s.fetcher h (parseRecords data h.count) = .ok pos →
           (∃ w, Completed r .badState w s t) ∧ Counted .pagesLoaded s t ∧
           NotCounted .pagesRefused s t))))

/-- SKIP_PAGE (R41). Out of PAGE_HELD, and with no job loaded, it completes BAD_STATE; for another page than
the one held it completes BAD_VALUE; the result words there are free (log 7). During a fetch it waits for
its end, and is carried out against the fetch state that the fetch left (R30): it skips a page refused then,
if that is the page it names, and completes BAD_STATE where the page was accepted. Of the page held it
writes the records NOT_PRODUCED where the page was refused for a record, leads on to its link word, puts the
fetcher in orphan mode, rises the expected sequence by 1, counts in PAGES_SKIPPED, and completes with the
number of records written. The tail bundle, if not all its records are read and orphan mode was clear, is
marked BROKEN and its withdrawn count rises by its records not read (R42): in the queue entry of its opening
record, or in the Bundle Table, where the TAILING test, the expiry test and the resolution test follow (R59,
R158): the bundle TAILING, or SETTLING where its window has expired; where it is resolved it closes, or
waits behind the front bundle. That the slot's writes come behind a read the fetcher then begins (log 51) and
which fields share one write (log 50) are the model's choices. -/
def Obligations.SkipPage : Prop :=
  (∀ (r : Request) (s : State), s.job = none → Asks 8 r s →
    ∃ t, exec .skipPage s = .next t ∧ (∃ w, Completed r .badState w s t) ∧
      SameButDone { t with freeCount := s.freeCount } s) ∧
  (∀ (p : Profile) (r : Request) (s : State), s.job = some p →
    let Skipped := fun (h : HeldPage) (t : State) =>
      h.recordsWritten = (if h.cause.ofRecord then h.count else 0) ∧
      Completed r .doneOk (BitVec.ofNat 32 h.recordsWritten) s t ∧
      Counted .pagesSkipped s t ∧ t.fetcher.orphan = true ∧
      t.fetcher.expected = s.fetcher.expected + 1 ∧ t.fetcher.source = .page h.address ∧
      t.fetcher.heldLink = 0 ∧ t.fetcher.held = none ∧ t.fetcher.heldShown = 0 ∧
      t.fetcher.endSeen = (s.fetcher.endSeen || h.ends) ∧
      (h.ends = true → t.fetcher.state = .ended) ∧ t.profile = s.profile ∧
      t.stations = s.stations ∧ CountedTimes h.recordsWritten .notProduced s t ∧
      (LinkOpen s → ∃ before more, t.sent = s.sent ++ before ++
        ((List.range h.recordsWritten).flatMap fun k => neverFedWrites h.address k (k + 1)) ++
        more ∧ (s.fetcher.state = .pageHeld → before = [])) ∧
      ((s.fetcher.orphan = true ∨ ∀ b ∈ s.fetcher.tail, b.read = b.size) →
        t.staging = s.staging ∧ t.bundles = s.bundles) ∧
      (∀ b, s.fetcher.orphan = false → s.fetcher.tail = some b → b.read ≠ b.size →
        let n := b.size - b.read
        ((∃ q ∈ s.staging, q.ordinal = b.ordinal ∧ 1 ≤ q.size) → t.bundles = s.bundles ∧
          t.staging = s.staging.map fun q => if q.ordinal = b.ordinal ∧ 1 ≤ q.size
            then { q with broken := true, withdrawn := q.withdrawn + n } else q) ∧
        (∀ g, (∀ q ∈ s.staging, q.ordinal = b.ordinal → q.size = 0) →
          bundleAt b.ordinal s = some g → (s.bundles.map Bundle.ordinal).Nodup →
          let tails := g.state = .feeding ∧ g.fed + g.withdrawn + n = g.size
          let expired := (∃ w ∈ s.intake.window, p.tailGaps ≤ w) ∧
            ∀ q ∈ s.remakes, q.ordinal = b.ordinal → q.sort ≠ .inSort
          let resolves := g.resolved + n = g.size ∧ g.state ≠ .doneWaiting
          t.staging = s.staging ∧
          (¬ resolves → ∃ state, bundleAt b.ordinal t = some { g with
              broken := true, withdrawn := g.withdrawn + n, state := state } ∧
            (¬ tails → g.state ≠ .tailing → state = g.state) ∧
            (tails → (∀ c ∈ s.bundles, c.state ≠ .tailing) →
              (expired → state = .settling) ∧ (¬ expired → state = .tailing))) ∧
          (resolves →
            (s.bundles.head? = some g → bundleAt b.ordinal t = none) ∧
            (s.bundles.head? ≠ some g → bundleAt b.ordinal t = some { g with
              broken := true, withdrawn := g.withdrawn + n, state := .doneWaiting }))))
    let RefusedThenJudged := fun (h : HeldPage) (t : State) => Counted .pagesRefused s t ∧
      (r.param0 = s.fetcher.expected → Skipped h t) ∧
      (r.param0 ≠ s.fetcher.expected → (∃ w, Completed r .badValue w s t) ∧
        t.fetcher.state = .pageHeld ∧ t.fetcher.held = some h ∧ NotCounted .pagesSkipped s t)
    (Asks 8 r s → ∃ t, exec .skipPage s = .next t ∧
      (s.fetcher.state = .fetching → t = { s with request := some { r with phase := .awaitingFetch } }) ∧
      (s.fetcher.state ≠ .fetching → s.fetcher.state ≠ .pageHeld →
        (∃ w, Completed r .badState w s t) ∧ SameButDone { t with freeCount := s.freeCount } s) ∧
      (∀ h, s.fetcher.state = .pageHeld → s.fetcher.held = some h →
        r.param0 ≠ s.fetcher.heldShown →
        (∃ w, Completed r .badValue w s t) ∧ SameButDone { t with freeCount := s.freeCount } s) ∧
      (∀ h, s.fetcher.state = .pageHeld → s.fetcher.held = some h →
        r.param0 = s.fetcher.heldShown → Skipped h t)) ∧
    (s.request = some r → r.code = 8 → r.phase = .awaitingFetch → s.fetcher.state = .fetching →
      (∀ data f, .pageHeader ∈ s.link.outstanding → s.fetcher.fetch = some f →
        let h := parseHeader data
        ∀ c, checkHeader p s.fetcher f.address h = some c →
          ∃ t, exec (.headerReadDone ⟨.awaited, data⟩) s = .next t ∧
            RefusedThenJudged { address := f.address, sequence := s.fetcher.expected,
                                count := h.count, ends := h.ends, cause := c } t) ∧
      (∀ data a h, .pageRecords ∈ s.link.outstanding →
        s.fetcher.fetch = some { address := a, header := some h } →
        ∃ t, exec (.recordsReadDone ⟨.awaited, data⟩) s = .next t ∧
          (∀ c slot, checkPage p s.fetcher h (parseRecords data h.count) = .error (c, slot) →
            RefusedThenJudged { address := a, sequence := s.fetcher.expected, count := h.count,
                                ends := h.ends, cause := c } t) ∧
          (∀ pos, checkPage p s.fetcher h (parseRecords data h.count) = .ok pos →
            (∃ w, Completed r .badState w s t) ∧ Counted .pagesLoaded s t ∧
            NotCounted .pagesSkipped s t))))

/-! ## Requests to the units -/

/-- SET_STATION (R83), case by case of its table. The result words on BAD_VALUE and on BAD_STATE are that rule's
as the model reads it (DEDUCED, log 32), and the word for a station above 11 is free (log 7). With no job
loaded it completes BAD_STATE, whatever its parameters (log 34). -/
def Obligations.SetStation : Prop :=
  (∀ (r : Request) (s : State), s.job = none → Asks 9 r s →
    ∃ t, exec .setStation s = .next t ∧ SameButDone { t with freeCount := s.freeCount } s ∧
      (∀ n : Fin 12, r.param0 = n.val → Completed r .badState (match (s.stations.get n).lastState with
        | none => 0 | some .ready => 1 | some .notReady => 2 | some .jam => 3) s t) ∧
      (11 < r.param0 → ∃ w, Completed r .badState w s t)) ∧
  (∀ (p : Profile) (r : Request) (s : State), s.job = some p → Asks 9 r s →
    ∃ t, exec .setStation s = .next t ∧ SameButDone { t with
        stations := s.stations, freeCount := s.freeCount } s ∧
      (11 < r.param0 → (∃ w, Completed r .badValue w s t) ∧ t.stations = s.stations) ∧
      (∀ n : Fin 12, r.param0 = n.val →
        let e := s.stations.get n
        let last : Word := match e.lastState with
          | none => 0 | some .ready => 1 | some .notReady => 2 | some .jam => 3
        (∀ m, m ≠ n → t.stations.get m = s.stations.get m) ∧
        ((1 < r.param1 ∨ e.fitted = false ∨ r.param1 = 1 ∧ (n = 0 ∨ n = 11)) →
          Completed r .badValue (BitVec.ofNat 32 e.state.code) s t ∧ t.stations.get n = e) ∧
        (e.fitted = true → r.param1 = 0 →
          (e.state = .online → Completed r .doneOk 1 s t ∧ t.stations.get n = e) ∧
          (e.state = .bypassed → e.lastState = some .ready → Completed r .doneOk 1 s t ∧
            t.stations.get n = { e with state := .online, misses := 0, doubles := 0,
                                        cause := none }) ∧
          ((e.state = .bypassed ∧ e.lastState ≠ some .ready ∨ e.state = .faulted) →
            Completed r .badState last s t ∧ t.stations.get n = e)) ∧
        (e.fitted = true → r.param1 = 1 → n ≠ 0 → n ≠ 11 → e.state ≠ .offline →
          Completed r .doneOk 2 s t ∧
          (e.state = .online → t.stations.get n = { e with state := .bypassed, misses := 0,
                                                            doubles := 0, cause := none }) ∧
          (e.state = .bypassed → t.stations.get n = e) ∧
          (e.state = .faulted → t.stations.get n = { e with state := .bypassed, misses := 0,
                                                             doubles := 0 }))))

/-- CLEAR_STATION (R84) and SET_THICKNESS (R85), with the result words those rules give; a word that they do not
give is free (log 7). With no job loaded CLEAR_STATION completes BAD_STATE, and SET_THICKNESS does so outside
READY and PAUSED, also where the parameters fail: that the state is judged first is the model's choice
(log 34). -/
def Obligations.ClearStationAndSetThickness : Prop :=
  (∀ (p : Profile) (r : Request) (s : State), s.job = some p →
    (Asks 10 r s → ∃ t, exec .clearStation s = .next t ∧ SameButDone { t with
        stations := s.stations, freeCount := s.freeCount } s ∧
      (11 < r.param0 → (∃ w, Completed r .badValue w s t) ∧ t.stations = s.stations) ∧
      (∀ n : Fin 12, r.param0 = n.val → let e := s.stations.get n
        (e.fitted = false → (∃ w, Completed r .badValue w s t) ∧ t.stations = s.stations) ∧
        (e.fitted = true → e.state ≠ .faulted →
          Completed r .badState (BitVec.ofNat 32 e.state.code) s t ∧ t.stations = s.stations) ∧
        (e.fitted = true → e.state = .faulted → e.lastState ≠ some .ready →
          Completed r .badState (match e.lastState with
            | none => 0 | some .ready => 1 | some .notReady => 2 | some .jam => 3) s t ∧
          t.stations = s.stations) ∧
        (∀ c, e.fitted = true → e.state = .faulted → e.lastState = some .ready →
          e.cause = some c → Completed r .doneOk (match c with
            | .missLimit => 1 | .doubleLimit => 2 | .jam => 3 | .lost => 4) s t ∧
          t.stations = s.stations.set n.val { e with state := .online, misses := 0, doubles := 0,
                                                     cause := none } n.isLt)))) ∧
  (∀ (r : Request) (s : State), s.job = none → Asks 10 r s →
    ∃ t, exec .clearStation s = .next t ∧ SameButDone { t with freeCount := s.freeCount } s ∧
      (∀ n : Fin 12, r.param0 = n.val →
        Completed r .badState (BitVec.ofNat 32 (s.stations.get n).state.code) s t) ∧
      (11 < r.param0 → ∃ w, Completed r .badState w s t)) ∧
  (∀ (r : Request) (s : State),
    (Asks 11 r s → ∃ t, exec .setThickness s = .next t ∧ SameButDone { t with
        stations := s.stations, freeCount := s.freeCount } s ∧
      (s.line.state ≠ .ready → s.line.state ≠ .paused →
        (∃ w, Completed r .badState w s t) ∧ t.stations = s.stations) ∧
      ((s.line.state = .ready ∨ s.line.state = .paused) →
        (11 < r.param0 → (∃ w, Completed r .badValue w s t) ∧ t.stations = s.stations) ∧
        (∀ n : Fin 12, r.param0 = n.val →
          let new := s.stations.set n.val { s.stations.get n with thickness := r.param1 } n.isLt
          let sum := ((new.toList.filter Station.fitted).map Station.thickness).sum
          (((s.stations.get n).fitted = false ∨ 20000 < r.param1 ∨ 60000 < sum) →
            (∃ w, Completed r .badValue w s t) ∧ t.stations = s.stations) ∧
          ((s.stations.get n).fitted = true → r.param1 ≤ 20000 → sum ≤ 60000 →
            Completed r .doneOk (BitVec.ofNat 32 sum) s t ∧ t.stations = new)))))

/-- CALIBRATE_GAUGE (R101), SELECT_HEAD (R118) and RESTORE_HEAD (R119), with the result words those rules
give. A parameter that names no head completes BAD_VALUE with a word that the entries do not give, and
changes nothing (log 7). With no job loaded all three complete BAD_STATE, the head requests with the state of
the head named (R104) whatever the parameter: that IDLE is judged first is the model's choice (log 34). -/
def Obligations.GaugeAndHeadRequests : Prop :=
  (∀ (r : Request) (s : State), s.job = none →
    (Asks 12 r s → ∃ t, exec .calibrateGauge s = .next t ∧ Completed r .badState 0 s t ∧
      SameButDone t s) ∧
    (Asks 13 r s → ∃ t, exec .selectHead s = .next t ∧
      SameButDone { t with freeCount := s.freeCount } s ∧
      (∀ h : Head, r.param0 = (match h with | .a => 0 | .b => 1) →
        Completed r .badState (BitVec.ofNat 32 (s.headEntry h).state.code) s t) ∧
      (1 < r.param0 → ∃ w, Completed r .badState w s t)) ∧
    (Asks 14 r s → ∃ t, exec .restoreHead s = .next t ∧
      SameButDone { t with freeCount := s.freeCount } s ∧
      (∀ h : Head, r.param0 = (match h with | .a => 0 | .b => 1) →
        Completed r .badState (BitVec.ofNat 32 (s.headEntry h).state.code) s t) ∧
      (1 < r.param0 → ∃ w, Completed r .badState w s t))) ∧
  (∀ (p : Profile) (r : Request) (s : State), s.job = some p →
    (Asks 12 r s → ∃ t, exec .calibrateGauge s = .next t ∧
      (s.gauge.state = .off → Completed r .badState 0 s t ∧ SameButDone t s) ∧
      (s.gauge.state ≠ .off → Completed r .doneOk (BitVec.ofNat 32 s.gauge.state.code) s t ∧
        t.gauge = { s.gauge with state := .calibrating } ∧
        SameButDone { t with gauge := s.gauge } s)) ∧
    (∀ h : Head, r.param0 = (match h with | .a => 0 | .b => 1) →
      let e := s.headEntry h
      let o := s.headEntry (otherHead h)
      (Asks 13 r s → ∃ t, exec .selectHead s = .next t ∧
        (p.headFitted h = true → e.state = .standby →
          t.headEntry h = { e with state := .active } ∧
          t.headEntry (otherHead h) =
            { o with state := if o.state = .active then .standby else o.state } ∧
          Completed r .doneOk (if o.state = .active then 1 else BitVec.ofNat 32 o.state.code) s t ∧
          t.print.readBacks = s.print.readBacks ∧ t.print.window = s.print.window ∧
          SameButDone { t with print := s.print } s) ∧
        (p.headFitted h = true → e.state ≠ .standby →
          Completed r .badState (BitVec.ofNat 32 e.state.code) s t ∧ SameButDone t s) ∧
        (p.headFitted h = false → (∃ w, Completed r .badValue w s t) ∧
          SameButDone { t with freeCount := s.freeCount } s)) ∧
      (Asks 14 r s → ∃ t, exec .restoreHead s = .next t ∧
        (p.headFitted h = true → e.state = .failed →
          t.headEntry h = { e with state := if headActive s then .standby else .active,
                                   purges := 0, run := 0 } ∧
          t.headEntry (otherHead h) = o ∧
          Completed r .doneOk (if headActive s then 1 else 2) s t ∧
          t.print.readBacks = s.print.readBacks ∧ t.print.window = s.print.window ∧
          SameButDone { t with print := s.print } s) ∧
        (p.headFitted h = true → e.state ≠ .failed →
          Completed r .badState (BitVec.ofNat 32 e.state.code) s t ∧ SameButDone t s) ∧
        (p.headFitted h = false → (∃ w, Completed r .badValue w s t) ∧
          SameButDone { t with freeCount := s.freeCount } s))) ∧
    (1 < r.param0 →
      (Asks 13 r s → ∃ t, exec .selectHead s = .next t ∧ (∃ w, Completed r .badValue w s t) ∧
        SameButDone { t with freeCount := s.freeCount } s) ∧
      (Asks 14 r s → ∃ t, exec .restoreHead s = .next t ∧ (∃ w, Completed r .badValue w s t) ∧
        SameButDone { t with freeCount := s.freeCount } s)))

/-- SNAPSHOT (R190): with no job loaded BAD_STATE with result word 0; else the counters of one moment are written,
job totals first, then the interval counters, then the snapshot sequence; the interval counters are zeroed,
the sequence rises by 1, and the request completes DONE_OK with the sequence, its slot answered after those
writes (R185). That each bank is one write, and the order among the writes of the job totals and among
those of the interval counters, is the model's reading (log 29). STATUS_REFRESH writes the job totals
while a job is loaded (R188), and nothing else. -/
def Obligations.SnapshotAndRefresh : Prop :=
  ∀ (r : Request) (s : State),
    (Asks 15 r s → s.job = none → ∃ t, exec .snapshot s = .next t ∧
      Completed r .badState 0 s t ∧ SameButDone t s) ∧
    (Asks 15 r s → s.job ≠ none → ∃ t, exec .snapshot s = .next t ∧ t.request = none ∧
      t.counters.snapshots =
        (if s.counters.snapshots = BitVec.allOnes 32 then 1 else s.counters.snapshots + 1) ∧
      (∀ c : LineCounter, c ≠ .requests → c ≠ .interrupts → c ≠ .pagesRead →
        t.counters.interval.get c.index = 0 ∧
        t.counters.total.get c.index = s.counters.total.get c.index) ∧
      t.counters.interval.get 62 = 1 ∧
      t.counters.total.get 62 = satIncr (s.counters.total.get 62) ∧
      (∀ i, t.counters.stationInterval.get i = 0) ∧
      t.counters.stationTotal = s.counters.stationTotal ∧
      (LinkOpen s → ∃ more, SlotAnswered r .doneOk t.counters.snapshots
        ([.write (controlBlock s + 0x410) (bankBytes s.counters.total.toList),
          .write (controlBlock s + 0x700) (bankBytes s.counters.stationTotal.toList),
          .write (controlBlock s + 0x510) (bankBytes s.counters.interval.toList),
          .write (controlBlock s + 0x7C0) (bankBytes s.counters.stationInterval.toList),
          .write (controlBlock s + 0x400) (leBytes 4 t.counters.snapshots.toNat)] ++ more) s t) ∧
      SameButDone { t with
        counters := { t.counters with snapshots := s.counters.snapshots } } s) ∧
    (∃ t, exec .statusRefresh s = .next t ∧ SameButLink t s ∧ t.counters = s.counters ∧
      (s.job = none → t = s) ∧
      (s.job ≠ none → LinkOpen s → t.sent = s.sent ++
        [.write (controlBlock s + 0x300) (bankBytes s.counters.total.toList),
         .write (controlBlock s + 0x640) (bankBytes s.counters.stationTotal.toList)]))
end

