-- ==== Sys2Proof/Laws/State.lean ====
section
/-! SUPPORT. What each shared operation leaves as it was, one lemma for each operation, tagged simp: no
later proof unfolds an operation to read a field that it does not touch. -/

namespace Sys2Proof.Machine

/-! ## The link, attention and counters -/

@[simp] theorem send_frame (m : Message) (s : State) : SameButLink (send m s) s := by
  simp [SameButLink, LinkKept, send]

@[simp] theorem send_rest (m : Message) (s : State) :
    (send m s).link = s.link ∧ (send m s).counters = s.counters ∧
    (send m s).sent = s.sent ++ [m] := ⟨rfl, rfl, rfl⟩

@[simp] theorem bump_frame (c : LineCounter) (s : State) : SameButLink (bump c s) s := by
  simp [SameButLink, LinkKept, bump]

@[simp] theorem bump_rest (c : LineCounter) (s : State) :
    (bump c s).link = s.link ∧ (bump c s).sent = s.sent ∧
    (bump c s).counters.stationTotal = s.counters.stationTotal ∧
    (bump c s).counters.stationInterval = s.counters.stationInterval := ⟨rfl, rfl, rfl, rfl⟩

@[simp] theorem bumpStation_frame (n : Fin 12) (k : StationCounter) (s : State) :
    SameButLink (bumpStation n k s) s := by simp [SameButLink, LinkKept, bumpStation]

@[simp] theorem bumpStation_rest (n : Fin 12) (k : StationCounter) (s : State) :
    (bumpStation n k s).link = s.link ∧ (bumpStation n k s).sent = s.sent ∧
    (bumpStation n k s).counters.total = s.counters.total ∧
    (bumpStation n k s).counters.interval = s.counters.interval := ⟨rfl, rfl, rfl, rfl⟩

@[simp] theorem setAttentionBit_frame (c : Attention) (s : State) :
    SameButLink (setAttentionBit c s) s := by
  unfold setAttentionBit
  split
  · simp [SameButLink, LinkKept]
  · dsimp only
    split
    · simp [SameButLink, LinkKept]
    · split <;> simp [SameButLink, LinkKept]

@[simp] theorem performItem_frame (i : LinkItem) (s : State) : SameButLink (performItem i s) s := by
  cases i <;> simp [SameButLink, LinkKept, performItem]

@[simp] theorem waitItem_frame (i : LinkItem) (s : State) : SameButLink (waitItem i s) s := by
  simp [SameButLink, LinkKept, waitItem]

@[simp] theorem handOver_frame (i : LinkItem) (s : State) : SameButLink (handOver i s) s := by
  unfold handOver
  split
  · simp [SameButLink, LinkKept]
  · split <;> simp [SameButLink, LinkKept]

@[simp] theorem raise_frame (c : Attention) (s : State) : SameButLink (raise c s) s := by
  unfold raise; split <;> simp [SameButLink, LinkKept]

@[simp] theorem hostWrite_frame (a : Address) (d : List Byte) (s : State) :
    SameButLink (hostWrite a d s) s := handOver_frame _ _

theorem issueRead_foldl (parts : List (Address × Nat)) (s : State) :
    SameButLink (parts.foldl (fun t p => handOver (.read p.1 p.2) t) s) s := by
  induction parts generalizing s with
  | nil => simp [SameButLink, LinkKept]
  | cons p ps ih => have h := ih (handOver (.read p.1 p.2) s); simpa [SameButLink, LinkKept] using h

@[simp] theorem issueRead_frame (k : ReadKind) (parts : List (Address × Nat)) (s : State) :
    SameButLink (issueRead k parts s) s := by
  have h := issueRead_foldl parts
    { s with link := { s.link with outstanding := s.link.outstanding ++ [k] } }
  simpa [SameButLink, LinkKept, issueRead] using h

@[simp] theorem statusWrite_frame (o : Nat) (d : List Byte) (s : State) :
    SameButLink (statusWrite o d s) s := hostWrite_frame _ _ _

@[simp] theorem writeTotals_frame (s : State) : SameButLink (writeTotals s) s := by
  simp [SameButLink, LinkKept, writeTotals]

@[simp] theorem writeFields_frame (fields : List (Nat × List Byte)) (s : State) :
    SameButLink (writeFields fields s) s := by
  unfold writeFields
  induction fields generalizing s with
  | nil => simp [SameButLink, LinkKept]
  | cons p ps ih => have h := ih (statusWrite p.1 p.2 s); simpa [SameButLink, LinkKept] using h

@[simp] theorem writeStatus_frame (s : State) : SameButLink (writeStatus s) s := by
  unfold writeStatus
  generalize statusFields s = fields
  exact writeFields_frame fields s

/-- What a change keeps, applyIf keeps. -/
theorem applyIf_proj {α : Type} (g : State → α) (c : Bool) (f : State → State) (s : State)
    (h : g (f s) = g s) : g (applyIf c f s) = g s := by
  unfold applyIf; split
  · exact h
  · rfl

/-! ## The mirrored records -/

@[simp] theorem refreshHolds_frame (s : State) : SameButSettled (refreshHolds s) s := by
  unfold refreshHolds applyIf
  simp only []
  split
  · simp [SameButSettled, LinkKept]
  · split <;> simp [SameButSettled, LinkKept]

@[simp] theorem refreshHolds_fetcher (s : State) : (refreshHolds s).fetcher = s.fetcher := by
  unfold refreshHolds applyIf
  simp only []
  split
  · rfl
  · split <;> simp

/-- After refreshHolds the hold-cause set is what R63 says it is; the tail window stands. -/
@[simp] theorem refreshHolds_intake (s : State) :
    (refreshHolds s).intake = { s.intake with holds := holdsNow s } := by
  unfold refreshHolds applyIf
  simp only []
  split
  · rename_i h; simp [h]
  · split <;> simp

@[simp] theorem setLine_frame (l : Line) (s : State) : SameButLine (setLine l s) s := by
  unfold setLine applyIf
  simp only []
  split <;> split <;> split <;> (try split) <;> simp [SameButLine, LinkKept]

@[simp] theorem setLine_line (l : Line) (s : State) : (setLine l s).line = l := by
  unfold setLine applyIf
  simp only []
  split <;> split <;> split <;> (try split) <;> simp

@[simp] theorem setLine_intake (l : Line) (s : State) : (setLine l s).intake = s.intake := by
  unfold setLine applyIf
  simp only []
  split <;> split <;> split <;> (try split) <;> simp

@[simp] theorem setLine_fetcher (l : Line) (s : State) : (setLine l s).fetcher = s.fetcher := by
  unfold setLine applyIf
  simp only []
  split <;> split <;> split <;> (try split) <;> simp

@[simp] theorem changeLine_frame (l : Line) (s : State) : SameButLine (changeLine l s) s := by
  unfold changeLine applyIf; split <;> simp [SameButLine, LinkKept]

/-- After a change of the line record the hold-cause set is what R63 says it is. -/
@[simp] theorem changeLine_intake (l : Line) (s : State) : (changeLine l s).intake =
    { s.intake with holds := holdsNow (setLine l s) } := by
  unfold changeLine applyIf; split <;> simp

@[simp] theorem changeLine_line (l : Line) (s : State) : (changeLine l s).line = l := by
  unfold changeLine applyIf; split <;> simp

/-- The runaway mark is cleared at an entry to RUNNING or DRAINING, and nothing else of the Wrap Monitor
changes (R127). -/
theorem setLine_wrap (l : Line) (s : State) :
    (setLine l s).wrap =
      if l.state ≠ s.line.state ∧ (l.state = .running ∨ l.state = .draining) then
        { s.wrap with runaway := false }
      else s.wrap := by
  unfold setLine applyIf
  simp only []
  split <;> split <;> split <;> (try split) <;> simp_all

theorem changeLine_wrap (l : Line) (s : State) : (changeLine l s).wrap = (setLine l s).wrap := by
  unfold changeLine applyIf; split <;> simp

@[simp] theorem setStation_frame (n : Fin 12) (e : Station) (s : State) :
    SameButStations (setStation n e s) s := by
  simp only [setStation, applyIf]; split <;> simp [SameButStations, LinkKept]

@[simp] theorem setStation_stations (n : Fin 12) (e : Station) (s : State) :
    (setStation n e s).stations = s.stations.set n.val e n.isLt := by
  simp only [setStation, applyIf]; split <;> simp

@[simp] theorem setHead_frame (h : Head) (e : HeadEntry) (s : State) :
    SameButPrint (setHead h e s) s := by
  cases h <;> (simp only [setHead, applyIf]; split <;> simp [SameButPrint, LinkKept])

@[simp] theorem setHead_intake (h : Head) (e : HeadEntry) (s : State) :
    (setHead h e s).intake = s.intake := by
  unfold setHead
  exact applyIf_proj State.intake _ _ _ (by simp)

theorem setHead_print (h : Head) (e : HeadEntry) (s : State) :
    (setHead h e s).print = match h with
      | .a => { s.print with headA := e }
      | .b => { s.print with headB := e } := by
  unfold setHead
  exact applyIf_proj State.print _ _ _ (by simp)

@[simp] theorem setHead_lists (h : Head) (e : HeadEntry) (s : State) :
    (setHead h e s).print.readBacks = s.print.readBacks ∧
    (setHead h e s).print.window = s.print.window := by
  rw [setHead_print]; cases h <;> simp

@[simp] theorem setHead_same (h : Head) (e : HeadEntry) (s : State) :
    (setHead h e s).headEntry h = e := by
  cases h <;> simp [State.headEntry, setHead_print]

@[simp] theorem setHead_other (h : Head) (e : HeadEntry) (s : State) :
    (setHead h e s).headEntry (otherHead h) = s.headEntry (otherHead h) := by
  cases h <;> simp [State.headEntry, otherHead, setHead_print]

@[simp] theorem setGauge_frame (g : Gauge) (s : State) : SameButGauge (setGauge g s) s := by
  simp only [setGauge, applyIf]; split <;> simp [SameButGauge, LinkKept]

@[simp] theorem setGauge_gauge (g : Gauge) (s : State) : (setGauge g s).gauge = g := by
  simp only [setGauge, applyIf]; split <;> simp

@[simp] theorem setSeal_frame (ok : Bool) (s : State) : SameButWrap (setSeal ok s) s := by
  simp only [setSeal, applyIf]; split <;> simp [SameButWrap, LinkKept]

@[simp] theorem setSeal_wrap (ok : Bool) (s : State) :
    (setSeal ok s).wrap = { s.wrap with sealOk := ok } := by
  simp only [setSeal, applyIf]; split <;> simp

@[simp] theorem setFetch_frame (f : FetchState) (s : State) :
    SameButFetcher (setFetch f s) s := by
  unfold setFetch applyIf
  simp only []
  split
  · simp [SameButFetcher, LinkKept]
  · split <;> split <;> simp [SameButFetcher, LinkKept]

@[simp] theorem setFetch_state (f : FetchState) (s : State) : (setFetch f s).fetcher.state = f := by
  unfold setFetch applyIf
  simp only []
  split
  · simp_all
  · split <;> split <;> simp

/-- A change of the fetch state touches no file position value and no list of the fetcher. -/
@[simp] theorem setFetch_position (f : FetchState) (s : State) :
    (setFetch f s).fetcher.source = s.fetcher.source ∧
    (setFetch f s).fetcher.heldLink = s.fetcher.heldLink ∧
    (setFetch f s).fetcher.expected = s.fetcher.expected ∧
    (setFetch f s).fetcher.lastSerial = s.fetcher.lastSerial ∧
    (setFetch f s).fetcher.skippedSince = s.fetcher.skippedSince ∧
    (setFetch f s).fetcher.tail = s.fetcher.tail ∧
    (setFetch f s).fetcher.orphan = s.fetcher.orphan ∧
    (setFetch f s).fetcher.nextOrdinal = s.fetcher.nextOrdinal ∧
    (setFetch f s).fetcher.endSeen = s.fetcher.endSeen ∧
    (setFetch f s).fetcher.fetch = s.fetcher.fetch ∧
    (setFetch f s).fetcher.skipped = s.fetcher.skipped ∧
    (setFetch f s).fetcher.closedCount = s.fetcher.closedCount ∧
    (setFetch f s).fetcher.lastClosed = s.fetcher.lastClosed ∧
    (setFetch f s).fetcher.pages = s.fetcher.pages := by
  unfold setFetch applyIf
  simp only []
  split
  · simp
  · split <;> split <;> simp

/-! ## The fetch, and the end of a request -/

@[simp] theorem refuseLink_frame (a : Address) (s : State) :
    SameButFetcher (refuseLink a s) s := by simp [refuseLink, SameButFetcher, LinkKept]

@[simp] theorem startFetch_frame (a : Address) (s : State) :
    SameButFetcher (startFetch a s) s := by simp [startFetch, SameButFetcher, LinkKept]

@[simp] theorem beginFetch_frame (p : Profile) (a : Address) (s : State) :
    SameButFetcher (beginFetch p a s) s := by
  unfold beginFetch; split <;> simp [SameButFetcher, LinkKept]

@[simp] theorem readLink_frame (s : State) : SameButLink (readLink s) s := by
  unfold readLink; split <;> simp [SameButLink, LinkKept]

@[simp] theorem fetchStep_frame (s : State) : SameButFetcher (fetchStep s) s := by
  unfold fetchStep
  split
  · simp [SameButFetcher, LinkKept]
  · split
    · split
      · split
        · simp [SameButFetcher, LinkKept]
        · split <;> simp [SameButFetcher, LinkKept]
      · simp [SameButFetcher, LinkKept]
    · split <;> simp [SameButFetcher, LinkKept]
    · simp [SameButFetcher, LinkKept]

@[simp] theorem settle_frame (s : State) : SameButSettled (settle s) s := by
  simp [settle, SameButSettled, LinkKept]

@[simp] theorem settle_window (s : State) : (settle s).intake.window = s.intake.window := by
  simp [settle]

@[simp] theorem completeRequest_frame (r : RequestResult) (w : Word) (s : State) :
    SameButDone (completeRequest r w s) s := by
  unfold completeRequest; split <;> simp [SameButDone, LinkKept]

@[simp] theorem completeRequest_rest (r : RequestResult) (w : Word) (s : State) :
    (completeRequest r w s).fetcher = s.fetcher ∧ (completeRequest r w s).intake = s.intake ∧
    (completeRequest r w s).request = none := by
  unfold completeRequest; split <;> simp_all

@[simp] theorem finish_frame (r : RequestResult) (w : Word) (s : State) :
    SameButDone (finish r w s) s := by simp [finish, SameButDone, LinkKept]

@[simp] theorem finish_request (r : RequestResult) (w : Word) (s : State) :
    (finish r w s).request = none := by simp [finish]

@[simp] theorem finishCode_frame (r : RequestResult) (n : Nat) (s : State) :
    SameButDone (finishCode r n s) s := by simp [finishCode, SameButDone, LinkKept]

@[simp] theorem finishCode_request (r : RequestResult) (n : Nat) (s : State) :
    (finishCode r n s).request = none := by simp [finishCode]

/-- A request that completes with a free word also moves on to the next free value. -/
theorem finishFree_frame (r : RequestResult) (s : State) :
    SameButDone (finishFree r s) { s with freeCount := s.freeCount + 1 } := by
  simp [finishFree, SameButDone, LinkKept]

@[simp] theorem setPhase_frame (ph : Phase) (s : State) :
    setPhase ph s = { s with request := s.request.map fun r => { r with phase := ph } } := rfl

end Sys2Proof.Machine
end

