-- ==== Sys2Proof/Laws/Pieces.lean ====
section
/-! SUPPORT. What the operations on pages, bundles, contexts, pockets and the line leave as it was. -/

namespace Sys2Proof.Machine

/-! ## Pages and outcomes -/

@[simp] theorem completionTest_frame (s : State) : SameButLine (completionTest s) s := by
  unfold completionTest; split <;> simp [SameButLine, LinkKept]

/-- Entry to COMPLETE leaves the Wrap Monitor as it is: only RUNNING and DRAINING clear its mark. -/
@[simp] theorem completionTest_wrap (s : State) : (completionTest s).wrap = s.wrap := by
  unfold completionTest; split <;> simp [changeLine_wrap, setLine_wrap]

/-- The whole of the completion test on the line record (R175). -/
theorem completionTest_line (s : State) :
    (completionTest s).line = if completionDue s then
      { s.line with state := .complete, drain := none, runEnable := false } else s.line := by
  unfold completionTest; split <;> simp

@[simp] theorem updatePage_frame (n : Nat) (f : OpenPage → OpenPage) (s : State) :
    SameButFetcher (updatePage n f s) s := by simp [updatePage, SameButFetcher, LinkKept]

@[simp] theorem updatePage_rest (n : Nat) (f : OpenPage → OpenPage) (s : State) :
    (updatePage n f s).link = s.link ∧ (updatePage n f s).counters = s.counters ∧
    (updatePage n f s).sent = s.sent := ⟨rfl, rfl, rfl⟩

@[simp] theorem writeOpenCount_frame (s : State) : SameButLink (writeOpenCount s) s :=
  statusWrite_frame _ _ _

@[simp] theorem countClosed_frame (q : Nat) (s : State) : SameButFetcher (countClosed q s) s := by
  simp [countClosed, SameButFetcher, LinkKept]

@[simp] theorem countClosed_fetcher (q : Nat) (s : State) : (countClosed q s).fetcher =
    { s.fetcher with closedCount := s.fetcher.closedCount + 1, lastClosed := q } := by
  simp [countClosed]

@[simp] theorem closePage_frame (p : OpenPage) (s : State) : SameButPages (closePage p s) s := by
  simp [closePage, SameButPages, LinkKept]

/-- The page's entry is gone and the close is counted; nothing else of the fetcher changes (R45). -/
@[simp] theorem closePage_fetcher (p : OpenPage) (s : State) : (closePage p s).fetcher =
    { s.fetcher with pages := s.fetcher.pages.filter (fun q => q.slot ≠ p.slot),
                     closedCount := s.fetcher.closedCount + 1, lastClosed := p.sequence } := by
  simp [closePage]

@[simp] theorem closeIfSettled_frame (n : Nat) (s : State) :
    SameButPages (closeIfSettled n s) s := by
  unfold closeIfSettled
  split
  · simp [SameButPages, LinkKept]
  · split <;> simp [SameButPages, LinkKept]

@[simp] theorem releaseSkipped_frame (s : State) : SameButPages (releaseSkipped s) s := by
  unfold releaseSkipped
  split
  · simp [SameButPages, LinkKept]
  · simp only []; split <;> simp [SameButPages, LinkKept]

@[simp] theorem releaseTail_frame (n : Option Nat) (s : State) :
    SameButPages (releaseTail n s) s := by
  unfold releaseTail
  simp only []
  split <;> simp [SameButPages, LinkKept]

@[simp] theorem writeOutcomeHalf_frame (a : Address) (f : OutcomeFields) (o : PieceOutcome)
    (s : State) : SameButLink (writeOutcomeHalf a f o s) s := by
  simp [writeOutcomeHalf, SameButLink, LinkKept]

@[simp] theorem putOutcome_frame (n k : Nat) (f : OutcomeFields) (o : PieceOutcome) (s : State) :
    SameButFetcher (putOutcome n k f o s) s := by
  unfold putOutcome
  simp only []
  split
  · simp [SameButFetcher, LinkKept]
  · split <;> simp [SameButFetcher, LinkKept]

@[simp] theorem writeOutcome_frame (n k : Nat) (f : OutcomeFields) (o : PieceOutcome) (s : State) :
    SameButPages (writeOutcome n k f o s) s := by simp [writeOutcome, SameButPages, LinkKept]

@[simp] theorem putReport_frame (b : Bundle) (c : CloseState) (w : Word) (s : State) :
    SameButFetcher (putReport b c w s) s := by
  unfold putReport
  split
  · simp [SameButFetcher, LinkKept]
  · split <;> simp [SameButFetcher, LinkKept]

@[simp] theorem writeReport_frame (b : Bundle) (c : CloseState) (w : Word) (s : State) :
    SameButPages (writeReport b c w s) s := by simp [writeReport, SameButPages, LinkKept]

/-! ## Contexts, pockets, the stacker -/

@[simp] theorem setPocket_fields (i : Nat) (k : Pocket) (s : State) :
    SameButPieces (setPocket i k s) s ∧ (setPocket i k s).fetcher = s.fetcher ∧
    (setPocket i k s).line = s.line ∧ (setPocket i k s).bundles = s.bundles ∧
    (setPocket i k s).stacker = s.stacker ∧ (setPocket i k s).intake = s.intake ∧
    (setPocket i k s).contexts = s.contexts ∧ (setPocket i k s).remakes = s.remakes ∧
    (setPocket i k s).link = s.link ∧ (setPocket i k s).counters = s.counters ∧
    (setPocket i k s).sent = s.sent := by
  simp [setPocket, SameButPieces, LinkKept]

@[simp] theorem setContext_fields (i : Nat) (c : Option Context) (s : State) :
    SameButPieces (setContext i c s) s ∧ (setContext i c s).fetcher = s.fetcher ∧
    (setContext i c s).line = s.line ∧ (setContext i c s).bundles = s.bundles ∧
    (setContext i c s).stacker = s.stacker ∧ (setContext i c s).intake = s.intake ∧
    (setContext i c s).track = s.track ∧ (setContext i c s).remakes = s.remakes ∧
    (setContext i c s).link = s.link ∧ (setContext i c s).counters = s.counters ∧
    (setContext i c s).sent = s.sent := by
  simp [setContext, SameButPieces, LinkKept]

@[simp] theorem freeContext_fields (i : Nat) (s : State) :
    SameButPieces (freeContext i s) s ∧ (freeContext i s).fetcher = s.fetcher ∧
    (freeContext i s).line = s.line ∧ (freeContext i s).bundles = s.bundles ∧
    (freeContext i s).stacker = s.stacker ∧ (freeContext i s).intake = s.intake ∧
    (freeContext i s).remakes = s.remakes ∧ (freeContext i s).link = s.link ∧
    (freeContext i s).counters = s.counters ∧ (freeContext i s).sent = s.sent := by
  simp [freeContext, SameButPieces, LinkKept]

@[simp] theorem updatePocketContext_fields (k : Pocket) (f : Context → Context) (s : State) :
    SameButPieces (updatePocketContext k f s) s ∧ (updatePocketContext k f s).fetcher = s.fetcher ∧
    (updatePocketContext k f s).line = s.line ∧ (updatePocketContext k f s).bundles = s.bundles ∧
    (updatePocketContext k f s).stacker = s.stacker ∧
    (updatePocketContext k f s).intake = s.intake ∧ (updatePocketContext k f s).track = s.track ∧
    (updatePocketContext k f s).remakes = s.remakes ∧
    (updatePocketContext k f s).link = s.link ∧
    (updatePocketContext k f s).counters = s.counters ∧
    (updatePocketContext k f s).sent = s.sent := by
  unfold updatePocketContext; split <;> simp [SameButPieces, LinkKept]

@[simp] theorem updateLatestContext_fields (k : Pocket) (f : Context → Context) (s : State) :
    SameButPieces (updateLatestContext k f s) s ∧ (updateLatestContext k f s).fetcher = s.fetcher ∧
    (updateLatestContext k f s).line = s.line ∧ (updateLatestContext k f s).bundles = s.bundles ∧
    (updateLatestContext k f s).stacker = s.stacker ∧
    (updateLatestContext k f s).intake = s.intake ∧ (updateLatestContext k f s).track = s.track ∧
    (updateLatestContext k f s).remakes = s.remakes ∧
    (updateLatestContext k f s).link = s.link ∧
    (updateLatestContext k f s).counters = s.counters ∧
    (updateLatestContext k f s).sent = s.sent := by
  unfold updateLatestContext; split
  · simp [SameButPieces, LinkKept]
  · split <;> simp [SameButPieces, LinkKept]

/-- What the operation does: the context named changes where the pocket is that of the latest attempt, and
every other context stays (R146). -/
theorem updateLatestContext_cases (k : Pocket) (f : Context → Context) (s : State) :
    updateLatestContext k f s = s ∨
    ∃ i c, pocketContext k s = some (i, c) ∧ c.lastPocket = k.serial ∧
      updateLatestContext k f s = setContext i (some (f c)) s := by
  unfold updateLatestContext
  split
  · exact .inl rfl
  · next i c h =>
    split
    · next e => exact .inr ⟨i, c, h, e, rfl⟩
    · exact .inl rfl

@[simp] theorem issueCommand_frame (c : StackerCommand) (s : State) :
    SameButStacker (issueCommand c s) s := by
  unfold issueCommand
  simp only [applyIf]
  split <;> split <;> simp [SameButStacker, LinkKept]

/-! ## Bundles -/

@[simp] theorem updateBundle_fields (n : Nat) (f : Bundle → Bundle) (s : State) :
    SameButBundles (updateBundle n f s) s ∧ (updateBundle n f s).fetcher = s.fetcher ∧
    (updateBundle n f s).line = s.line ∧ (updateBundle n f s).stacker = s.stacker ∧
    (updateBundle n f s).intake = s.intake ∧ (updateBundle n f s).link = s.link ∧
    (updateBundle n f s).counters = s.counters ∧ (updateBundle n f s).sent = s.sent := by
  simp [updateBundle, SameButBundles, LinkKept]

@[simp] theorem removeBundle_frame (b : Bundle) (c : CloseState) (s : State) :
    SameButBundles (removeBundle b c s) s := by
  simp [removeBundle, SameButBundles, LinkKept]

@[simp] theorem closeBundle_frame (b : Bundle) (w : Word) (s : State) :
    SameButBundles (closeBundle b w s) s := by
  unfold closeBundle applyIf
  simp only []
  split <;> split <;> simp [SameButBundles, LinkKept]

/-- A close judges TABLE_FULL and BUNDLE_TAIL again, and leaves the tail window as it is. -/
@[simp] theorem closeBundle_window (b : Bundle) (w : Word) (s : State) :
    (closeBundle b w s).intake.window = s.intake.window := by
  unfold closeBundle applyIf
  simp only []
  split <;> split <;> simp [removeBundle]

theorem closeWaiting_frame (w : Word) (bs : List Bundle) (s : State) :
    SameButBundles (closeWaiting w bs s) s := by
  induction bs generalizing s with
  | nil => simp [closeWaiting, SameButBundles, LinkKept]
  | cons b rest ih =>
    unfold closeWaiting
    split
    · have h := ih (closeBundle b w s); simpa [SameButBundles, LinkKept] using h
    · simp [SameButBundles, LinkKept]

@[simp] theorem closeFront_frame (w : Word) (s : State) : SameButBundles (closeFront w s) s := by
  unfold closeFront
  split
  · simp [SameButBundles, LinkKept]
  · rename_i b rest _
    have h := closeWaiting_frame w rest (closeBundle b w s)
    simpa [SameButBundles, LinkKept] using h

@[simp] theorem endWindow_frame (n : Nat) (s : State) : SameButBundles (endWindow n s) s := by
  simp [endWindow, SameButBundles, LinkKept]

/-- The bundle is SETTLING and the counter is absent (R57, R59). -/
theorem endWindow_rest (n : Nat) (s : State) :
    (endWindow n s).intake.window = none ∧
    (endWindow n s).bundles =
      s.bundles.map (fun b => if b.ordinal = n then { b with state := .settling } else b) := by
  simp [endWindow, updateBundle]

@[simp] theorem countAndTest_frame (n : Nat) (f : Bundle → Bundle) (s : State) :
    SameButBundles (countAndTest n f s) s := by
  simp [countAndTest, SameButBundles, LinkKept]

@[simp] theorem countAndTest_window (n : Nat) (f : Bundle → Bundle) (s : State) :
    (countAndTest n f s).intake.window = s.intake.window := by
  simp [countAndTest]

@[simp] theorem resolutionTest_frame (n : Nat) (w : Word) (s : State) :
    SameButBundles (resolutionTest n w s) s := by
  unfold resolutionTest applyIf
  simp only []
  split
  · simp [SameButBundles, LinkKept]
  · split
    · split <;> split <;> simp [SameButBundles, LinkKept]
    · simp [SameButBundles, LinkKept]

@[simp] theorem expiryTest_frame (p : Profile) (s : State) :
    SameButBundles (expiryTest p s) s := by
  unfold expiryTest
  split
  · simp [SameButBundles, LinkKept]
  · split <;> simp [SameButBundles, LinkKept]

@[simp] theorem askSortClass_frame (n : Nat) (w : Word) (s : State) :
    SameButBundles (askSortClass n w s).2 s := by
  unfold askSortClass
  split
  · simp [SameButBundles, LinkKept]
  · split <;> simp [SameButBundles, LinkKept]

/-! ## Faults -/

@[simp] theorem queueRemake_frame (i : Nat) (c : Context) (w : Word) (s : State) :
    SameButPieces (queueRemake i c w s) s := by
  unfold queueRemake
  cases c.sort <;> simp [SameButPieces, LinkKept]

@[simp] theorem failSubscriber_frame (i : Nat) (c : Context) (w : Word) (s : State) :
    SameButPieces (failSubscriber i c w s) s := by
  unfold failSubscriber applyIf
  simp only []
  split <;> simp [SameButPieces, LinkKept]

@[simp] theorem firstFault_frame (i : Nat) (k : Pocket) (f : PocketFault) (s : State) :
    SameButPieces (firstFault i k f s) s := by
  unfold firstFault
  simp only []
  split
  · simp [SameButPieces, LinkKept]
  · split <;> simp [SameButPieces, LinkKept]

@[simp] theorem handFault_frame (i : Nat) (c : FaultCause) (n : Option (Fin 12)) (b : Bool)
    (s : State) : SameButPieces (handFault i c n b s) s := by
  unfold handFault
  split
  · simp [SameButPieces, LinkKept]
  · split <;> simp [SameButPieces, LinkKept]

/-! ## The line -/

@[simp] theorem enterPaused_frame (c : StopCause) (s : State) :
    SameButPaused (enterPaused c s) s := by simp [enterPaused, SameButPaused, LinkKept]

/-- Entry to PAUSED, whole, on the line record (R173). -/
@[simp] theorem enterPaused_line (c : StopCause) (s : State) : (enterPaused c s).line =
    { s.line with state := .paused, drain := none, stop := c, runEnable := false } := by
  simp [enterPaused]

@[simp] theorem drainEndTest_frame (s : State) : SameButPaused (drainEndTest s) s := by
  unfold drainEndTest; split <;> simp [SameButPaused, LinkKept]

@[simp] theorem enterOperatorDrain_frame (c : StopCause) (h : HaltCause) (s : State) :
    SameButPaused (enterOperatorDrain c h s) s := by
  simp [enterOperatorDrain, SameButPaused, LinkKept]

@[simp] theorem takeNoPrint_frame (s : State) : SameButPaused (takeNoPrint s) s := by
  unfold takeNoPrint
  split
  · simp [SameButPaused, LinkKept]
  · split <;> simp [SameButPaused, LinkKept]
  · simp [SameButPaused, LinkKept]

@[simp] theorem raiseStop_frame (c : StopCause) (s : State) : SameButPaused (raiseStop c s) s := by
  unfold raiseStop
  split
  · simp [SameButPaused, LinkKept]
  · split <;> simp [SameButPaused, LinkKept]

@[simp] theorem markSuspect_frame (p : Profile) (s : State) (n : Nat) :
    SameButPieces (markSuspect p s n) s := by
  unfold markSuspect
  simp only []
  split
  · simp [SameButPieces, LinkKept]
  · split <;> simp [SameButPieces, LinkKept]

theorem markAll_frame (p : Profile) (l : List Nat) (s : State) :
    SameButPieces (l.foldl (markSuspect p) s) s := by
  induction l generalizing s with
  | nil => simp [SameButPieces, LinkKept]
  | cons n l ih => have h := ih (markSuspect p s n); simpa [SameButPieces, LinkKept] using h

@[simp] theorem suspectMarking_frame (s : State) : SameButPieces (suspectMarking s) s := by
  unfold suspectMarking
  split
  · simp [SameButPieces, LinkKept]
  · exact markAll_frame _ _ _

@[simp] theorem haltEntry_frame (c : HaltCause) (s : State) : SameButHalted (haltEntry c s) s := by
  simp [haltEntry, SameButHalted, LinkKept, setLine_wrap]

@[simp] theorem raiseHalt_frame (c : HaltCause) (s : State) : SameButHalted (raiseHalt c s) s := by
  unfold raiseHalt
  split
  · simp [SameButHalted, LinkKept]
  · simp [SameButHalted, LinkKept]
  · split <;> simp [SameButHalted, LinkKept]

@[simp] theorem takeFileEnd_frame (s : State) : SameButLine (takeFileEnd s) s := by
  unfold takeFileEnd; split <;> simp [SameButLine, LinkKept]

@[simp] theorem fileEndTest_frame (s : State) : SameButLine (fileEndTest s) s := by
  unfold fileEndTest; split <;> simp [SameButLine, LinkKept]

/-! ## Heads and stations -/

@[simp] theorem swapHead_frame (p : Profile) (h : Head) (s : State) :
    SameButPitch (swapHead p h s) s := by
  unfold swapHead applyIf
  simp only []
  split <;> split <;> split <;> simp [SameButPitch, LinkKept]

@[simp] theorem endPurge_frame (h : Head) (s : State) : SameButPrint (endPurge h s) s := by
  simp [endPurge, SameButPrint, LinkKept]

/-- All but the Station Table and what a stop cause may change is the same. -/
theorem stationFault_frame (n : Fin 12) (c : StationCause) (s : State) :
    SameButPaused { stationFault n c s with stations := s.stations } s := by
  unfold stationFault
  simp only []
  split <;> simp [SameButPaused, LinkKept]

@[simp] theorem stationFault_fields (n : Fin 12) (c : StationCause) (s : State) :
    (stationFault n c s).pending = s.pending ∧ (stationFault n c s).request = s.request ∧
    (stationFault n c s).profile = s.profile ∧ (stationFault n c s).staging = s.staging ∧
    (stationFault n c s).contexts = s.contexts ∧ (stationFault n c s).track = s.track ∧
    (stationFault n c s).gauge = s.gauge ∧ (stationFault n c s).print = s.print ∧
    (stationFault n c s).remakes = s.remakes ∧ (stationFault n c s).gate = s.gate ∧
    (stationFault n c s).bundles = s.bundles ∧ (stationFault n c s).stacker = s.stacker ∧
    (stationFault n c s).inputs = s.inputs ∧ (stationFault n c s).sealerTimer = s.sealerTimer ∧
    (stationFault n c s).freeCount = s.freeCount ∧ LinkKept (stationFault n c s) s := by
  have h := stationFault_frame n c s
  simp only [SameButPaused, LinkKept] at h ⊢
  obtain ⟨h1, h2, h3, h4, h5, h6, _, h7, h8, h9, h10, h11, h12, h13, h14, h15, h16⟩ := h
  exact ⟨h1, h2, h3, h4, h5, h6, h8, h9, h10, h11, h12, h13, h14, h7, h15, h16⟩

end Sys2Proof.Machine
end

