-- ==== Sys2Proof/Laws/Fetch.lean ====
section
/-! SUPPORT. What the operations of the Page Fetcher leave as it was. -/

namespace Sys2Proof.Machine

@[simp] theorem writeHeader_frame (a : Address) (st c i : Nat) (s : State) :
    SameButLink (writeHeader a st c i s) s := by simp [writeHeader, SameButLink, LinkKept]

@[simp] theorem refusePage_frame (a : Address) (h : PageHeader) (c : RefusalCause) (i : Nat)
    (s : State) : SameButFetcher (refusePage a h c i s) s := by
  simp [refusePage, SameButFetcher, LinkKept]

/-- A refused page is held, the fetch is over, and no file position value changes (R34). -/
theorem refusePage_fetcher (a : Address) (h : PageHeader) (c : RefusalCause) (i : Nat)
    (s : State) :
    (refusePage a h c i s).fetcher.state = .pageHeld ∧
    (refusePage a h c i s).fetcher.fetch = none ∧
    (refusePage a h c i s).fetcher.source = s.fetcher.source ∧
    (refusePage a h c i s).fetcher.heldLink = s.fetcher.heldLink ∧
    (refusePage a h c i s).fetcher.expected = s.fetcher.expected ∧
    (refusePage a h c i s).fetcher.lastSerial = s.fetcher.lastSerial ∧
    (refusePage a h c i s).fetcher.skippedSince = s.fetcher.skippedSince ∧
    (refusePage a h c i s).fetcher.tail = s.fetcher.tail ∧
    (refusePage a h c i s).fetcher.orphan = s.fetcher.orphan ∧
    (refusePage a h c i s).fetcher.nextOrdinal = s.fetcher.nextOrdinal ∧
    (refusePage a h c i s).fetcher.endSeen = s.fetcher.endSeen ∧
    (refusePage a h c i s).fetcher.pages = s.fetcher.pages := by
  simp [refusePage]

@[simp] theorem takeRecord_frame (p : Profile) (n k : Nat) (pos : FilePosition)
    (r : RecordFields) (s : State) : SameButPitch (takeRecord p n k pos r s) s := by
  unfold takeRecord applyIf
  simp only []
  split
  · simp [SameButPitch, LinkKept]
  · split <;> simp [SameButPitch, LinkKept]

@[simp] theorem takeRecords_frame (p : Profile) (n k : Nat) (pos : FilePosition)
    (rs : List RecordFields) (s : State) : SameButPitch (takeRecords p n k pos rs s) s := by
  induction rs generalizing k pos s with
  | nil => simp [takeRecords, SameButPitch, LinkKept]
  | cons r rs ih =>
    have h := ih (k + 1) ((continueBundle pos r).getD pos) (takeRecord p n k pos r s)
    simpa [takeRecords, SameButPitch, LinkKept] using h

@[simp] theorem acceptPage_frame (p : Profile) (a : Address) (h : PageHeader)
    (rs : List RecordFields) (pos : FilePosition) (s : State) :
    SameButPitch (acceptPage p a h rs pos s) s := by
  unfold acceptPage
  simp only []
  split <;> simp [SameButPitch, LinkKept]

@[simp] theorem withdrawBundle_frame (p : Profile) (o n : Nat) (s : State) :
    SameButBundles (withdrawBundle p o n s) s := by
  simp [withdrawBundle, SameButBundles, LinkKept]

@[simp] theorem breakTail_frame (p : Profile) (s : State) : SameButPitch (breakTail p s) s := by
  unfold breakTail
  split
  · simp [SameButPitch, LinkKept]
  · split
    · simp [SameButPitch, LinkKept]
    · split
      · simp [SameButPitch, LinkKept]
      · simp only []; split <;> simp [SameButPitch, LinkKept]

theorem skipAll_frame (a : Address) (l : List Nat) (s : State) :
    SameButLink (l.foldl (skipRecord a) s) s := by
  induction l generalizing s with
  | nil => simp [SameButLink, LinkKept]
  | cons n l ih =>
    have h := ih (skipRecord a s n)
    simpa [skipRecord, SameButLink, LinkKept] using h

@[simp] theorem skipRecords_frame (h : HeldPage) (s : State) : SameButLink (skipRecords h s) s :=
  skipAll_frame _ _ _

/-- All but the request, and what a pitch event may change, is the same: what the Page Fetcher's own
work may change. -/
abbrev SameButFetch (t s : State) : Prop :=
  t.pending = s.pending ∧ t.profile = s.profile ∧ t.stations = s.stations ∧
  t.sealerTimer = s.sealerTimer ∧ t.inputs = s.inputs ∧ LinkKept t s

@[simp] theorem skipHeldPage_frame (p : Profile) (h : HeldPage) (s : State) :
    SameButFetch (skipHeldPage p h s) s := by
  unfold skipHeldPage
  simp only []
  split <;> simp [SameButFetch, LinkKept]

@[simp] theorem finishFree_fields (r : RequestResult) (s : State) :
    SameButFetch (finishFree r s) s ∧ (finishFree r s).request = none ∧
    (finishFree r s).freeCount = s.freeCount + 1 := by
  simp [finishFree, SameButFetch, LinkKept]

@[simp] theorem serveSkip_frame (p : Profile) (s : State) : SameButFetch (serveSkip p s) s := by
  unfold serveSkip
  split
  · split <;> simp [SameButFetch, LinkKept]
  · simp [SameButFetch, LinkKept]

@[simp] theorem retryAddress_frame (p : Profile) (a : Address) (s : State) :
    SameButFetch (retryAddress p a s) s := by
  unfold retryAddress
  simp only []
  split <;> simp [SameButFetch, LinkKept]

@[simp] theorem serveRetry_frame (p : Profile) (s : State) : SameButFetch (serveRetry p s) s := by
  unfold serveRetry
  split
  · split <;> simp [SameButFetch, LinkKept]
  · simp [SameButFetch, LinkKept]

@[simp] theorem afterFetch_frame (p : Profile) (s : State) : SameButFetch (afterFetch p s) s := by
  unfold afterFetch
  split
  · simp [SameButFetch, LinkKept]
  · split
    · simp [SameButFetch, LinkKept]
    · split <;> simp [SameButFetch, LinkKept]
    · simp [SameButFetch, LinkKept]

/-! ## Failure of host memory access -/

@[simp] theorem releaseAttention_frame (l : List LinkItem) (s : State) :
    SameButLink (releaseAttention l s) s := by
  induction l generalizing s with
  | nil => simp [releaseAttention, SameButLink, LinkKept]
  | cons i l ih =>
    cases i with
    | write a d => have h := ih s; simpa [releaseAttention] using h
    | read a n => have h := ih s; simpa [releaseAttention] using h
    | attention c =>
      have h := ih (setAttentionBit c s); simpa [releaseAttention, SameButLink, LinkKept] using h

@[simp] theorem failRequest_fields (s : State) :
    (failRequest s).pending = s.pending ∧ (failRequest s).profile = s.profile ∧
    (failRequest s).stations = s.stations ∧ (failRequest s).sealerTimer = s.sealerTimer ∧
    (failRequest s).inputs = s.inputs ∧ (failRequest s).line = s.line ∧
    (failRequest s).track = s.track ∧ LinkKept (failRequest s) s := by
  unfold failRequest
  split
  · simp [LinkKept]
  · split <;> simp [LinkKept, finishFree]

@[simp] theorem accessFailure_fields (s : State) :
    (accessFailure s).pending = s.pending ∧ (accessFailure s).profile = s.profile ∧
    (accessFailure s).stations = s.stations ∧ (accessFailure s).inputs = s.inputs := by
  unfold accessFailure
  split <;> simp [stopAccess]

end Sys2Proof.Machine
end

