-- ==== Sys2Proof/Laws/Flow.lean ====
section
/-! SUPPORT. What every shared operation does to the link, to what was sent and to the counters, said once
for any relation that the primitive operations keep. With `Flows` it says that what was sent only grows,
that an open link stays open and that no attention bit falls; with `NotCounted c` that a counter stays
unless the operation may count it. -/

namespace Sys2Proof.Machine

/-- A relation between states that is kept by the primitive operations, where only counters in `L` are
counted. -/
structure Follows (R : State → State → Prop) (L : LineCounter → Prop) : Prop where
  trans : ∀ {s t u}, R s t → R t u → R s u
  quiet : ∀ {s t : State}, t.link = s.link → t.counters = s.counters → t.sent = s.sent →
    t.fetcher.state = s.fetcher.state → R s t
  write : ∀ a d s, R s (hostWrite a d s)
  read : ∀ k ps s, R s (issueRead k ps s)
  raised : ∀ c s, R s (raise c s)
  sends : ∀ m s, R s (send m s)
  counts : ∀ c s, L c → R s (bump c s)
  fetch : ∀ f s, f ≠ .linkDown → R s { s with fetcher := { s.fetcher with state := f } }

variable {R : State → State → Prop} {L : LineCounter → Prop}

theorem Follows.refl (B : Follows R L) (s : State) : R s s := B.quiet rfl rfl rfl rfl

theorem applyIf_follows (B : Follows R L) {c : Bool} {f : State → State} {s : State}
    (h : ∀ u, R u (f u)) : R s (applyIf c f s) := by
  unfold applyIf; split
  · exact h s
  · exact B.refl s

theorem foldl_follows (B : Follows R L) {α : Type} (f : State → α → State)
    (h : ∀ u a, R u (f u a)) (l : List α) (s : State) : R s (l.foldl f s) := by
  induction l generalizing s with
  | nil => exact B.refl s
  | cons a l ih => exact B.trans (h s a) (ih _)

/-! ## The status section, the line, the units -/

theorem statusWrite_follows (B : Follows R L) (o : Nat) (d : List Byte) (s : State) :
    R s (statusWrite o d s) := B.write _ _ _

theorem writeTotals_follows (B : Follows R L) (s : State) : R s (writeTotals s) :=
  B.trans (B.write _ _ _) (B.write _ _ _)

theorem writeFields_follows (B : Follows R L) (l : List (Nat × List Byte)) (s : State) :
    R s (writeFields l s) := foldl_follows B _ (fun _ _ => B.write _ _ _) _ _

theorem writeStatus_follows (B : Follows R L) (s : State) : R s (writeStatus s) :=
  writeFields_follows B _ _

theorem setLine_follows (B : Follows R L) (l : Line) (s : State) : R s (setLine l s) := by
  unfold setLine
  simp only []
  refine B.trans ?_ (applyIf_follows B fun u => ?_)
  · refine B.trans ?_ (applyIf_follows B fun u => statusWrite_follows B _ _ _)
    refine B.trans ?_ (applyIf_follows B fun u => statusWrite_follows B _ _ _)
    exact B.quiet rfl rfl rfl rfl
  · refine B.trans ?_ (writeTotals_follows B _)
    refine B.trans ?_ (statusWrite_follows B _ _ _)
    exact applyIf_follows B fun u => B.quiet rfl rfl rfl rfl

theorem refreshHolds_follows (B : Follows R L) (s : State) : R s (refreshHolds s) := by
  unfold refreshHolds
  simp only []
  split
  · exact B.refl s
  · refine B.trans ?_ (applyIf_follows B fun _ => B.raised _ _)
    refine B.trans ?_ (statusWrite_follows B _ _ _)
    exact B.quiet rfl rfl rfl rfl

theorem changeLine_follows (B : Follows R L) (l : Line) (s : State) : R s (changeLine l s) :=
  B.trans (B.trans (setLine_follows B _ _) (refreshHolds_follows B _))
    (applyIf_follows B fun _ => B.raised _ _)

theorem setStation_follows (B : Follows R L) (n : Fin 12) (e : Station) (s : State) :
    R s (setStation n e s) := by
  unfold setStation
  refine B.trans ?_ (applyIf_follows B fun u => statusWrite_follows B _ _ _)
  exact B.quiet rfl rfl rfl rfl

theorem setHead_follows (B : Follows R L) (h : Head) (e : HeadEntry) (s : State) :
    R s (setHead h e s) := by
  unfold setHead
  refine B.trans ?_ (applyIf_follows B fun u => statusWrite_follows B _ _ _)
  exact B.quiet rfl rfl rfl rfl

theorem setGauge_follows (B : Follows R L) (g : Gauge) (s : State) : R s (setGauge g s) := by
  unfold setGauge
  refine B.trans ?_ (applyIf_follows B fun u => ?_)
  · exact B.quiet rfl rfl rfl rfl
  · refine B.trans ?_ (statusWrite_follows B _ _ _)
    refine B.trans ?_ (statusWrite_follows B _ _ _)
    exact statusWrite_follows B _ _ _

theorem setSeal_follows (B : Follows R L) (ok : Bool) (s : State) : R s (setSeal ok s) := by
  unfold setSeal
  refine B.trans ?_ (applyIf_follows B fun u => statusWrite_follows B _ _ _)
  exact B.quiet rfl rfl rfl rfl

theorem setFetch_follows (B : Follows R L) (f : FetchState) (hf : f ≠ .linkDown) (s : State) :
    R s (setFetch f s) := by
  unfold setFetch
  simp only []
  split
  · exact B.refl s
  · refine B.trans ?_ (statusWrite_follows B _ _ _)
    refine B.trans ?_ (B.fetch f _ hf)
    refine B.trans ?_ (applyIf_follows B fun u => ?_)
    · refine applyIf_follows B fun u => ?_
      refine B.trans ?_ (statusWrite_follows B _ _ _)
      exact B.quiet rfl rfl rfl rfl
    · refine B.trans ?_ (statusWrite_follows B _ _ _)
      exact B.quiet rfl rfl rfl rfl

theorem refuseLink_follows (B : Follows R L) (a : Address) (s : State) : R s (refuseLink a s) := by
  unfold refuseLink
  refine B.trans ?_ (B.raised _ _)
  refine B.trans ?_ (setFetch_follows B _ (by simp) _)
  refine B.trans ?_ (statusWrite_follows B _ _ _)
  exact B.quiet rfl rfl rfl rfl

theorem startFetch_follows (B : Follows R L) (h : L .pagesRead) (a : Address) (s : State) :
    R s (startFetch a s) := by
  unfold startFetch
  simp only []
  refine B.trans ?_ (B.read _ _ _)
  refine B.trans (t := setFetch .fetching (bump .pagesRead s)) ?_ (B.quiet rfl rfl rfl rfl)
  exact B.trans (B.counts .pagesRead s h) (setFetch_follows B .fetching (by simp) _)

theorem beginFetch_follows (B : Follows R L) (h : L .pagesRead) (p : Profile) (a : Address)
    (s : State) : R s (beginFetch p a s) := by
  unfold beginFetch; split
  · exact startFetch_follows B h _ _
  · exact refuseLink_follows B _ _

theorem readLink_follows (B : Follows R L) (s : State) : R s (readLink s) := by
  unfold readLink; split
  · exact B.refl s
  · exact B.read _ _ _
  · exact B.read _ _ _

theorem fetchStep_follows (B : Follows R L) (h : L .pagesRead) (s : State) : R s (fetchStep s) := by
  unfold fetchStep
  split
  · exact B.refl s
  · split
    · split
      · split
        · exact beginFetch_follows B h _ _ _
        · split
          · exact readLink_follows B _
          · exact beginFetch_follows B h _ _ _
      · exact B.refl s
    · split
      · exact B.refl s
      · exact setFetch_follows B _ (by simp) _
    · exact B.refl s

theorem settle_follows (B : Follows R L) (h : L .pagesRead) (s : State) : R s (settle s) :=
  B.trans (fetchStep_follows B h s) (refreshHolds_follows B _)

/-! ## Requests -/

theorem completeRequest_follows (B : Follows R L) (h : L .requests) (r : RequestResult) (w : Word)
    (s : State) : R s (completeRequest r w s) := by
  unfold completeRequest
  split
  · exact B.refl s
  · simp only []
    refine B.trans ?_ (B.counts _ _ h)
    refine B.trans ?_ (B.raised _ _)
    refine B.trans (t := hostWrite _ _ (hostWrite _ _ (hostWrite _ _ (hostWrite _ _ s)))) ?_
      (B.quiet rfl rfl rfl rfl)
    refine B.trans ?_ (B.write _ _ _)
    refine B.trans ?_ (B.write _ _ _)
    refine B.trans ?_ (B.write _ _ _)
    exact B.write _ _ _

theorem finish_follows (B : Follows R L) (h1 : L .requests) (h2 : L .pagesRead) (r : RequestResult)
    (w : Word) (s : State) : R s (finish r w s) :=
  B.trans (settle_follows B h2 s) (completeRequest_follows B h1 _ _ _)

theorem finishFree_follows (B : Follows R L) (h1 : L .requests) (h2 : L .pagesRead)
    (r : RequestResult) (s : State) : R s (finishFree r s) :=
  B.trans (t := { s with freeCount := s.freeCount + 1 }) (B.quiet rfl rfl rfl rfl)
    (finish_follows B h1 h2 _ _ _)

/-! ## Pages, outcomes, reports -/

theorem completionTest_follows (B : Follows R L) (s : State) : R s (completionTest s) := by
  unfold completionTest; split
  · exact B.trans (changeLine_follows B _ _) (B.raised _ _)
  · exact B.refl s

theorem countClosed_follows (B : Follows R L) (q : Nat) (s : State) : R s (countClosed q s) := by
  unfold countClosed
  simp only []
  refine B.trans ?_ (B.raised _ _)
  refine B.trans ?_ (statusWrite_follows B _ _ _)
  refine B.trans ?_ (statusWrite_follows B _ _ _)
  refine B.trans ?_ (statusWrite_follows B _ _ _)
  exact B.quiet rfl rfl rfl rfl

theorem closePage_follows (B : Follows R L) (p : OpenPage) (s : State) : R s (closePage p s) := by
  unfold closePage
  simp only []
  refine B.trans ?_ (completionTest_follows B _)
  refine B.trans ?_ (countClosed_follows B _ _)
  exact B.trans (B.write (p.address + 0x10) (leBytes 1 pageClosed) s) (B.quiet rfl rfl rfl rfl)

theorem closeIfSettled_follows (B : Follows R L) (n : Nat) (s : State) :
    R s (closeIfSettled n s) := by
  unfold closeIfSettled; split
  · exact B.refl s
  · split
    · exact closePage_follows B _ _
    · exact B.refl s

theorem releaseSkipped_follows (B : Follows R L) (s : State) : R s (releaseSkipped s) := by
  unfold releaseSkipped; split
  · exact B.refl s
  · simp only []
    refine B.trans (t := { s with fetcher := { s.fetcher with skipped := none } })
      (B.quiet rfl rfl rfl rfl) ?_
    split
    · exact B.refl _
    · exact B.trans (B.trans (B.write _ _ _) (countClosed_follows B _ _))
        (completionTest_follows B _)

theorem releaseTail_follows (B : Follows R L) (n : Option Nat) (s : State) :
    R s (releaseTail n s) := by
  unfold releaseTail
  refine B.trans (releaseSkipped_follows B s) ?_
  simp only []
  split
  · exact B.refl _
  · refine B.trans ?_ (closeIfSettled_follows B _ _)
    exact B.quiet rfl rfl rfl rfl

theorem updatePage_follows (B : Follows R L) (n : Nat) (f : OpenPage → OpenPage) (s : State) :
    R s (updatePage n f s) := B.quiet rfl rfl rfl rfl

theorem setPocket_follows (B : Follows R L) (i : Nat) (k : Pocket) (s : State) :
    R s (setPocket i k s) := B.quiet rfl rfl rfl rfl

theorem setContext_follows (B : Follows R L) (i : Nat) (c : Option Context) (s : State) :
    R s (setContext i c s) := B.quiet rfl rfl rfl rfl

theorem freeContext_follows (B : Follows R L) (i : Nat) (s : State) :
    R s (freeContext i s) := B.quiet rfl rfl rfl rfl

theorem updateBundle_follows (B : Follows R L) (n : Nat) (f : Bundle → Bundle) (s : State) :
    R s (updateBundle n f s) := B.quiet rfl rfl rfl rfl

theorem writeOutcomeHalf_follows (B : Follows R L) (a : Address) (f : OutcomeFields)
    (o : PieceOutcome) (s : State) : R s (writeOutcomeHalf a f o s) :=
  B.trans (B.trans (B.write _ _ _) (B.write _ _ _)) (B.write _ _ _)

theorem putOutcome_follows (B : Follows R L) (n k : Nat) (f : OutcomeFields) (o : PieceOutcome)
    (h : L (outcomeCounter o)) (s : State) : R s (putOutcome n k f o s) := by
  unfold putOutcome
  simp only []
  refine B.trans (B.counts _ s h) ?_
  split
  · exact B.refl _
  · split
    · exact B.refl _
    · refine B.trans ?_ (updatePage_follows B _ _ _)
      refine B.trans ?_ (B.write _ _ _)
      exact writeOutcomeHalf_follows B _ _ _ _

theorem writeOutcome_follows (B : Follows R L) (n k : Nat) (f : OutcomeFields) (o : PieceOutcome)
    (h : L (outcomeCounter o)) (s : State) : R s (writeOutcome n k f o s) :=
  B.trans (putOutcome_follows B n k f o h s) (closeIfSettled_follows B _ _)

theorem putReport_follows (B : Follows R L) (b : Bundle) (c : CloseState) (w : Word) (s : State) :
    R s (putReport b c w s) := by
  unfold putReport; split
  · exact B.refl s
  · split
    · exact B.refl s
    · simp only []
      refine B.trans ?_ (updatePage_follows B _ _ _)
      refine B.trans ?_ (B.write _ _ _)
      refine B.trans ?_ (B.write _ _ _)
      exact B.write _ _ _

theorem writeReport_follows (B : Follows R L) (b : Bundle) (c : CloseState) (w : Word)
    (s : State) : R s (writeReport b c w s) :=
  B.trans (putReport_follows B b c w s) (closeIfSettled_follows B _ _)

theorem updateLatestContext_follows (B : Follows R L) (k : Pocket) (f : Context → Context)
    (s : State) : R s (updateLatestContext k f s) := by
  unfold updateLatestContext; split
  · exact B.refl s
  · split
    · exact B.quiet rfl rfl rfl rfl
    · exact B.refl s

theorem updatePocketContext_follows (B : Follows R L) (k : Pocket) (f : Context → Context)
    (s : State) : R s (updatePocketContext k f s) := by
  unfold updatePocketContext; split
  · exact B.refl s
  · exact B.quiet rfl rfl rfl rfl

/-! ## Bundles and faults -/

theorem issueCommand_follows (B : Follows R L) (c : StackerCommand) (h1 : L (commandCounter c))
    (h2 : L .stackerUnready) (s : State) : R s (issueCommand c s) := by
  unfold issueCommand
  simp only []
  have hb : R s (applyIf (!(bump (commandCounter c) s).inputs.stackerReady) (bump .stackerUnready)
      (bump (commandCounter c) s)) :=
    B.trans (B.counts _ s h1) (applyIf_follows B fun _ => B.counts _ _ h2)
  refine B.trans hb ?_
  split
  · refine B.trans ?_ (B.sends _ _)
    exact B.quiet rfl rfl rfl rfl
  · exact B.quiet rfl rfl rfl rfl

/-- The counters that the close of a bundle by resolution may move. -/
def closeCounts : List LineCounter :=
  [.ejects, .trayBreaks, .stackerUnready, .bundlesComplete, .bundlesShort]

theorem removeBundle_follows (B : Follows R L) (b : Bundle) (c : CloseState)
    (h : L (closeCounter c)) (s : State) : R s (removeBundle b c s) := by
  unfold removeBundle
  simp only []
  refine B.trans ?_ (B.counts _ _ h)
  refine B.trans ?_ (B.raised _ _)
  refine B.trans ?_ (refreshHolds_follows B _)
  exact B.quiet rfl rfl rfl rfl

theorem closeBundle_follows (B : Follows R L) (h : ∀ c ∈ closeCounts, L c) (b : Bundle) (w : Word)
    (s : State) : R s (closeBundle b w s) := by
  unfold closeBundle
  simp only []
  have hc : L (closeCounter b.closeState) := by
    unfold Bundle.closeState; split <;> exact h _ (by simp [closeCounts, closeCounter])
  have he : L (commandCounter .bundleEject) := h _ (by simp [closeCounts, commandCounter])
  have ht : L (commandCounter .trayBreak) := h _ (by simp [closeCounts, commandCounter])
  have hu : L .stackerUnready := h _ (by simp [closeCounts])
  refine B.trans ?_ (removeBundle_follows B _ _ hc _)
  refine B.trans ?_ (writeReport_follows B _ _ _ _)
  refine B.trans ?_ (applyIf_follows B fun _ => issueCommand_follows B _ ht hu _)
  exact applyIf_follows B fun _ => issueCommand_follows B _ he hu _

theorem closeWaiting_follows (B : Follows R L) (h : ∀ c ∈ closeCounts, L c) (w : Word)
    (l : List Bundle) (s : State) : R s (closeWaiting w l s) := by
  induction l generalizing s with
  | nil => exact B.refl s
  | cons b l ih =>
    unfold closeWaiting; split
    · exact B.trans (closeBundle_follows B h _ _ _) (ih _)
    · exact B.refl s

theorem closeFront_follows (B : Follows R L) (h : ∀ c ∈ closeCounts, L c) (w : Word) (s : State) :
    R s (closeFront w s) := by
  unfold closeFront; split
  · exact B.refl s
  · exact B.trans (closeBundle_follows B h _ _ _) (closeWaiting_follows B h _ _ _)

theorem endWindow_follows (B : Follows R L) (n : Nat) (s : State) : R s (endWindow n s) := by
  unfold endWindow
  refine B.trans ?_ (refreshHolds_follows B _)
  exact B.quiet rfl rfl rfl rfl

theorem countAndTest_follows (B : Follows R L) (n : Nat) (f : Bundle → Bundle) (s : State) :
    R s (countAndTest n f s) :=
  B.trans (updateBundle_follows B _ _ _) (refreshHolds_follows B _)

theorem resolutionTest_follows (B : Follows R L) (h : ∀ c ∈ closeCounts, L c) (n : Nat) (w : Word)
    (s : State) : R s (resolutionTest n w s) := by
  unfold resolutionTest; split
  · exact B.refl s
  · rename_i b _
    split
    · simp only []
      refine B.trans (applyIf_follows (c := b.inWindow) (f := endWindow n) B
        fun u => endWindow_follows B n u) ?_
      split
      · exact closeFront_follows B h _ _
      · exact updateBundle_follows B _ _ _
    · exact B.refl s

theorem expiryTest_follows (B : Follows R L) (p : Profile) (s : State) : R s (expiryTest p s) := by
  unfold expiryTest; split
  · exact B.refl s
  · split
    · exact endWindow_follows B _ _
    · exact B.refl s

theorem askSortClass_follows (B : Follows R L) (h : ∀ c ∈ closeCounts, L c) (n : Nat) (w : Word)
    (s : State) : R s (askSortClass n w s).2 := by
  unfold askSortClass; split
  · exact B.refl s
  · split
    · exact B.refl s
    · exact B.refl s
    · refine B.trans ?_ (resolutionTest_follows B h _ _ _)
      exact B.quiet rfl rfl rfl rfl
    · exact B.refl s

theorem queueRemake_follows (B : Follows R L) (h : ∀ c ∈ .remakesQueued :: closeCounts, L c)
    (i : Nat) (c : Context) (w : Word) (s : State) : R s (queueRemake i c w s) := by
  unfold queueRemake
  have hc : ∀ c ∈ closeCounts, L c := fun c m => h c (by simp [m])
  have hq : L .remakesQueued := h _ (by simp)
  cases c.sort <;> simp only []
  · refine B.trans ?_ (B.counts _ _ hq)
    refine B.trans (askSortClass_follows B hc c.ordinal w s) ?_
    exact B.quiet rfl rfl rfl rfl
  · refine B.trans ?_ (B.counts _ _ hq)
    exact B.quiet rfl rfl rfl rfl

theorem failSubscriber_follows (B : Follows R L) (h : ∀ c ∈ .failed :: closeCounts, L c)
    (i : Nat) (c : Context) (w : Word) (s : State) : R s (failSubscriber i c w s) := by
  unfold failSubscriber
  simp only []
  have hc : ∀ c ∈ closeCounts, L c := fun c m => h c (by simp [m])
  have hf : L (outcomeCounter .failed) := h _ (by simp [outcomeCounter])
  refine B.trans ?_ (applyIf_follows B fun u => resolutionTest_follows B hc _ _ _)
  refine B.trans ?_ (freeContext_follows B _ _)
  refine B.trans ?_ (writeOutcome_follows B _ _ _ _ hf _)
  exact applyIf_follows B fun u => B.quiet rfl rfl rfl rfl

theorem firstFault_follows (B : Follows R L)
    (h : ∀ c ∈ .firstFaults :: .remakesQueued :: .failed :: closeCounts, L c) (i : Nat)
    (k : Pocket) (f : PocketFault) (s : State) : R s (firstFault i k f s) := by
  unfold firstFault
  simp only []
  have hb : R s (bump .firstFaults (setPocket i { k with state := .faulted, fault := some f } s)) :=
    B.trans (setPocket_follows B _ _ _) (B.counts _ _ (h _ (by simp)))
  refine B.trans hb ?_
  split
  · exact B.refl _
  · rename_i j c _
    refine B.trans (setContext_follows B j (some { c with
      lastFault := some (f.cause, f.station) }) _) ?_
    · split
      · exact queueRemake_follows B (fun c m => h c (by simp at m ⊢; tauto)) _ _ _ _
      · exact failSubscriber_follows B (fun c m => h c (by simp at m ⊢; tauto)) _ _ _ _

/-- The counters that a fault handed over may move. -/
def faultCounts : List LineCounter :=
  .laterFaults :: .firstFaults :: .remakesQueued :: .failed :: closeCounts

theorem handFault_follows (B : Follows R L) (h : ∀ c ∈ faultCounts, L c) (i : Nat)
    (c : FaultCause) (n : Option (Fin 12)) (b : Bool) (s : State) :
    R s (handFault i c n b s) := by
  unfold handFault; split
  · exact B.refl s
  · split
    · exact firstFault_follows B (fun c m => h c (by simp [faultCounts] at m ⊢; tauto)) _ _ _ _
    · exact B.counts _ _ (h _ (by simp [faultCounts]))
    · exact B.refl s

/-! ## Stops, drains, halts -/

theorem enterPaused_follows (B : Follows R L) (h : ∀ c ∈ [.pauses, .pagesRead], L c)
    (c : StopCause) (s : State) : R s (enterPaused c s) := by
  unfold enterPaused
  refine B.trans ?_ (settle_follows B (h _ (by simp)) _)
  refine B.trans ?_ (changeLine_follows B _ _)
  exact B.counts .pauses s (h _ (by simp))

theorem drainEndTest_follows (B : Follows R L) (h : ∀ c ∈ [.pauses, .pagesRead], L c)
    (s : State) : R s (drainEndTest s) := by
  unfold drainEndTest; split
  · exact enterPaused_follows B h _ _
  · exact B.refl s

theorem enterOperatorDrain_follows (B : Follows R L)
    (h : ∀ c ∈ [.drains, .pauses, .pagesRead], L c) (c : StopCause) (d : HaltCause) (s : State) :
    R s (enterOperatorDrain c d s) := by
  unfold enterOperatorDrain
  refine B.trans ?_ (drainEndTest_follows B (fun c m => h c (by simp at m ⊢; tauto)) _)
  refine B.trans ?_ (settle_follows B (h _ (by simp)) _)
  refine B.trans ?_ (changeLine_follows B _ _)
  exact B.counts .drains s (h _ (by simp))

/-- The counters that a stop cause raised may move. -/
def stopCounts : List LineCounter := [.drains, .pauses, .pagesRead]

theorem takeNoPrint_follows (B : Follows R L) (h : ∀ c ∈ stopCounts, L c) (s : State) :
    R s (takeNoPrint s) := by
  unfold takeNoPrint; split
  · exact enterOperatorDrain_follows B h _ _ _
  · split
    · exact setLine_follows B _ _
    · exact enterOperatorDrain_follows B h _ _ _
  · exact B.refl s

theorem raiseStop_follows (B : Follows R L) (h : ∀ c ∈ stopCounts, L c) (c : StopCause)
    (s : State) : R s (raiseStop c s) := by
  have hp : ∀ c ∈ [LineCounter.pauses, .pagesRead], L c :=
    fun c m => h c (by simp [stopCounts] at m ⊢; tauto)
  unfold raiseStop; split
  · exact takeNoPrint_follows B h _
  · split
    · exact enterPaused_follows B hp _ _
    · exact enterPaused_follows B hp _ _
    · exact B.refl s

theorem markSuspect_follows (B : Follows R L) (h : ∀ c ∈ .suspectFaults :: faultCounts, L c)
    (p : Profile) (s : State) (n : Nat) : R s (markSuspect p s n) := by
  unfold markSuspect
  simp only []
  split
  · exact B.refl s
  · split
    · exact B.trans (B.counts _ _ (h _ (by simp)))
        (handFault_follows B (fun c m => h c (by simp [m])) _ _ _ _ _)
    · exact B.refl s

theorem suspectMarking_follows (B : Follows R L) (h : ∀ c ∈ .suspectFaults :: faultCounts, L c)
    (s : State) : R s (suspectMarking s) := by
  unfold suspectMarking; split
  · exact B.refl s
  · exact foldl_follows B _ (markSuspect_follows B h _) _ _

/-- The counters that halt entry may move. -/
def haltCounts : List LineCounter := .halts :: .pagesRead :: .suspectFaults :: faultCounts

theorem haltEntry_follows (B : Follows R L) (h : ∀ c ∈ haltCounts, L c) (c : HaltCause)
    (s : State) : R s (haltEntry c s) := by
  unfold haltEntry
  simp only []
  have hp : L .pagesRead := h _ (by simp [haltCounts])
  have hs : ∀ c ∈ .suspectFaults :: faultCounts, L c :=
    fun c m => h c (by simp [haltCounts] at m ⊢; tauto)
  refine B.trans ?_ (settle_follows B hp _)
  refine B.trans ?_ (B.raised _ _)
  refine B.trans ?_ (B.raised _ _)
  refine B.trans (t := suspectMarking _) ?_ (B.quiet rfl rfl rfl rfl)
  refine B.trans ?_ (suspectMarking_follows B hs _)
  refine B.trans ?_ (refreshHolds_follows B _)
  refine B.trans ?_ (setLine_follows B _ _)
  exact B.counts .halts s (h _ (by simp [haltCounts]))

theorem raiseHalt_follows (B : Follows R L) (h : ∀ c ∈ haltCounts, L c) (c : HaltCause)
    (s : State) : R s (raiseHalt c s) := by
  unfold raiseHalt; split
  · exact B.refl s
  · exact B.refl s
  · split
    · exact B.refl s
    · exact haltEntry_follows B h _ _

theorem takeFileEnd_follows (B : Follows R L) (s : State) : R s (takeFileEnd s) := by
  unfold takeFileEnd; split
  · refine B.trans ?_ (completionTest_follows B _)
    exact changeLine_follows B _ _
  · exact B.quiet rfl rfl rfl rfl

theorem fileEndTest_follows (B : Follows R L) (s : State) : R s (fileEndTest s) := by
  unfold fileEndTest; split
  · exact takeFileEnd_follows B _
  · exact B.refl s

theorem swapHead_follows (B : Follows R L) (h : ∀ c ∈ .purges :: .headSwaps :: stopCounts, L c)
    (p : Profile) (d : Head) (s : State) : R s (swapHead p d s) := by
  unfold swapHead
  simp only []
  have h1 : L .purges := h _ (by simp)
  have h2 : L .headSwaps := h _ (by simp)
  refine B.trans ?_ (applyIf_follows B fun _ => raiseStop_follows B (fun c m => h c (by simp [m])) _ _)
  refine B.trans ?_ (B.counts _ _ h2)
  refine B.trans ?_ (B.raised _ _)
  refine B.trans ?_ (refreshHolds_follows B _)
  refine B.trans ?_ (applyIf_follows B fun _ => setHead_follows B _ _ _)
  refine B.trans ?_ (applyIf_follows B fun _ => B.counts _ _ h1)
  exact setHead_follows B _ _ _

theorem endPurge_follows (B : Follows R L) (d : Head) (s : State) : R s (endPurge d s) := by
  unfold endPurge
  refine B.trans ?_ (B.raised _ _)
  exact B.trans (setHead_follows B _ _ _) (refreshHolds_follows B _)

theorem stationFault_follows (B : Follows R L) (h : ∀ c ∈ .stationFaults :: stopCounts, L c)
    (n : Fin 12) (c : StationCause) (s : State) : R s (stationFault n c s) := by
  unfold stationFault
  simp only []
  have hb : R s (bump .stationFaults s) := B.counts .stationFaults s (h _ (by simp))
  refine B.trans hb ?_
  split
  · refine B.trans ?_ (B.raised _ _)
    exact setStation_follows B _ _ _
  · refine B.trans ?_ (raiseStop_follows B (fun c m => h c (by simp [m])) _ _)
    refine B.trans ?_ (B.raised _ _)
    exact setStation_follows B _ _ _

/-! ## The parts of a pitch event -/

theorem placePocket_follows (B : Follows R L) (p : Profile) (k : Pocket) (s : State) :
    R s (placePocket p k s) := B.quiet rfl rfl rfl rfl

theorem feedGap_follows (B : Follows R L) (h : L .gapsFed) (p : Profile) (s : State) :
    R s (feedGap p s) := by
  unfold feedGap
  refine B.trans ?_ (B.counts _ _ h)
  exact placePocket_follows B _ _ _

theorem feedRemake_follows (B : Follows R L) (h : L .remakesFed) (p : Profile) (r : Remake)
    (rest : List Remake) (s : State) : R s (feedRemake p r rest s) := by
  unfold feedRemake
  simp only []
  refine B.trans ?_ (B.counts _ _ h)
  split <;> exact B.quiet rfl rfl rfl rfl

theorem openBundle_follows (B : Follows R L) (h : L .bundlesOpened) (r : Staged) (s : State) :
    R s (openBundle r s) := by
  unfold openBundle
  refine B.trans ?_ (B.counts _ _ h)
  refine B.trans ?_ (refreshHolds_follows B _)
  exact B.quiet rfl rfl rfl rfl

theorem feedNew_follows (B : Follows R L) (h : ∀ c ∈ [.bundlesOpened, .newFed], L c) (p : Profile)
    (r : Staged) (rest : List Staged) (i : Nat) (s : State) : R s (feedNew p r rest i s) := by
  unfold feedNew
  simp only []
  have h1 : L .bundlesOpened := h _ (by simp)
  have h2 : L .newFed := h _ (by simp)
  refine B.trans ?_ (B.counts _ _ h2)
  refine B.trans ?_ (fileEndTest_follows B _)
  refine B.trans ?_ (placePocket_follows B _ _ _)
  refine B.trans ?_ (countAndTest_follows B _ _ _)
  refine B.trans ?_ (applyIf_follows B fun _ => openBundle_follows B h1 _ _)
  refine B.trans ?_ (setContext_follows B _ _ _)
  refine B.trans ?_ (refreshHolds_follows B _)
  exact B.quiet rfl rfl rfl rfl

/-- The counters that a fill may move. -/
def fillCounts : List LineCounter := [.gapsFed, .starvedGaps, .remakesFed, .bundlesOpened, .newFed]

theorem fillIntake_follows (B : Follows R L) (h : ∀ c ∈ fillCounts, L c) (p : Profile)
    (s : State) : R s (fillIntake p s).1 := by
  have hg : L .gapsFed := h _ (by simp [fillCounts])
  have hs : L .starvedGaps := h _ (by simp [fillCounts])
  have hr : L .remakesFed := h _ (by simp [fillCounts])
  have hn : ∀ c ∈ [LineCounter.bundlesOpened, .newFed], L c :=
    fun c m => h c (by simp [fillCounts] at m ⊢; tauto)
  unfold fillIntake
  simp only []
  split
  · exact feedGap_follows B hg _ _
  · split
    · exact feedGap_follows B hg _ _
    · split
      · exact feedRemake_follows B hr _ _ _ _
      · split
        · split
          · exact feedGap_follows B hg _ _
          · exact feedNew_follows B hn _ _ _ _ _
        · refine B.trans ?_ (applyIf_follows B fun _ => B.counts _ _ hs)
          exact feedGap_follows B hg _ _

theorem updateWindow_follows (B : Follows R L) (n : Option Nat) (s : State) :
    R s (updateWindow n s) := by
  unfold updateWindow; split
  · exact B.quiet rfl rfl rfl rfl
  · exact B.refl s

theorem takeFill_follows (B : Follows R L) (h : ∀ c ∈ fillCounts, L c) (p : Profile) (s : State) :
    R s (takeFill p s) := by
  unfold takeFill
  simp only []
  refine B.trans ?_ (expiryTest_follows B _ _)
  refine B.trans ?_ (updateWindow_follows B _ _)
  exact fillIntake_follows B h _ _

theorem stationArrival_follows (B : Follows R L) (p : Profile) (n : Fin 12) (s : State) :
    R s (stationArrival p n s) := by
  unfold stationArrival
  simp only []
  split
  · exact B.refl s
  · split
    · exact B.refl s
    · split
      · split
        · refine B.trans ?_ (B.sends _ _)
          exact B.quiet rfl rfl rfl rfl
        · exact B.sends _ _
      · split
        · exact updatePocketContext_follows B _ _ _
        · exact B.refl s
      · split
        · exact setPocket_follows B _ _ _
        · exact B.refl s
      · exact B.refl s

theorem printArrival_follows (B : Follows R L) (h : ∀ c ∈ .prints :: .noPrints :: faultCounts, L c)
    (p : Profile) (t : Track) (s : State) : R s (printArrival p t s) := by
  have h1 : L .prints := h _ (by simp)
  have h2 : L .noPrints := h _ (by simp)
  unfold printArrival
  split
  · split
    · exact B.refl s
    · split
      · exact B.refl s
      · simp only []
        refine B.trans ?_ (B.counts _ _ h1)
        refine B.trans ?_ (B.sends _ _)
        exact B.quiet rfl rfl rfl rfl
      · refine B.trans ?_ (handFault_follows B (fun c m => h c (by simp [m])) _ _ _ _ _)
        exact B.counts _ _ h2
  · exact B.refl s

theorem dropReadBack_follows (B : Follows R L) (i : Nat) (k : Pocket) (s : State) :
    R s (dropReadBack i k s) := B.quiet rfl rfl rfl rfl

theorem verifyArrival_follows (B : Follows R L) (p : Profile) (t : Track) (s : State) :
    R s (verifyArrival p t s) := by
  unfold verifyArrival
  split
  · exact B.refl s
  · split
    · split
      · exact B.sends _ _
      · exact dropReadBack_follows B _ _ _
      · exact B.refl s
    · exact B.refl s

/-- The counters that an arrival at GAUGE may move. -/
def gaugeCounts : List LineCounter :=
  .zeroUpdates :: .gaugeDrifts :: .gaugeGood :: .gaugeShort :: .gaugeOver :: .gaugeSkips :: faultCounts

theorem trackZero_follows (B : Follows R L) (h : L .zeroUpdates) (r : Nat) (s : State) :
    R s (trackZero r s) := by
  unfold trackZero
  refine B.trans ?_ (setGauge_follows B _ _)
  exact B.counts _ _ h

theorem driftCheck_follows (B : Follows R L) (h : L .gaugeDrifts) (p : Profile) (s : State) :
    R s (driftCheck p s) := by
  unfold driftCheck
  split
  · refine B.trans ?_ (B.counts _ _ h)
    refine B.trans ?_ (B.raised _ _)
    exact setGauge_follows B _ _
  · exact B.refl s

theorem classify_follows (B : Follows R L)
    (h : ∀ c ∈ .gaugeGood :: .gaugeShort :: .gaugeOver :: faultCounts, L c) (p : Profile)
    (r i : Nat) (k : Pocket) (s : State) : R s (classify p r i k s) := by
  have h1 : L .gaugeGood := h _ (by simp)
  have h2 : L .gaugeShort := h _ (by simp)
  have h3 : L .gaugeOver := h _ (by simp)
  have hf : ∀ c ∈ faultCounts, L c := fun c m => h c (by simp [m])
  unfold classify
  simp only []
  refine B.trans (setPocket_follows B i
    { k with thickness := some (thicknessOf r s.gauge.z16 p.scale) } s) ?_
  split
  · exact B.counts _ _ h1
  · refine B.trans ?_ (handFault_follows B hf _ _ _ _ _)
    exact B.counts _ _ h2
  · refine B.trans ?_ (handFault_follows B hf _ _ _ _ _)
    exact B.counts _ _ h3

theorem gaugeArrival_follows (B : Follows R L) (h : ∀ c ∈ gaugeCounts, L c) (p : Profile)
    (t : Track) (r : Nat) (s : State) : R s (gaugeArrival p t r s) := by
  have hz : L .zeroUpdates := h _ (by simp [gaugeCounts])
  have hd : L .gaugeDrifts := h _ (by simp [gaugeCounts])
  have hk : L .gaugeSkips := h _ (by simp [gaugeCounts])
  unfold gaugeArrival
  split
  · exact B.refl s
  · split
    · split
      · refine B.trans ?_ (driftCheck_follows B hd _ _)
        exact trackZero_follows B hz _ _
      · exact trackZero_follows B hz _ _
      · unfold calibrationReading
        refine B.trans ?_ (setGauge_follows B _ _)
        exact B.counts _ _ hz
      · exact B.refl s
    · split
      · split
        · exact classify_follows B (fun c m => h c (by simp [gaugeCounts] at m ⊢; tauto)) _ _ _ _ _
        · unfold skipGauge
          refine B.trans ?_ (updateLatestContext_follows B _ _ _)
          exact B.counts _ _ hk
      · exact B.refl s

/-- The counters that a pitch event may move at SEAL. -/
def wrapCounts : List LineCounter :=
  .filmOut :: .wrapFaults :: .sealFaults :: .filmStops :: (stopCounts ++ faultCounts)

theorem sealArrival_follows (B : Follows R L)
    (h : ∀ c ∈ .wrapFaults :: .sealFaults :: faultCounts, L c) (p : Profile) (t : Track) (b : Bool)
    (s : State) : R s (sealArrival p t b s) := by
  have h1 : L .wrapFaults := h _ (by simp)
  have h2 : L .sealFaults := h _ (by simp)
  have hf : ∀ c ∈ faultCounts, L c := fun c m => h c (by simp [m])
  unfold sealArrival
  split
  · simp only []
    refine B.trans ?_ (applyIf_follows B fun u => ?_)
    · refine applyIf_follows B fun u => ?_
      refine B.trans ?_ (handFault_follows B hf _ _ _ _ _)
      exact B.counts _ _ h1
    · refine B.trans ?_ (handFault_follows B hf _ _ _ _ _)
      exact B.counts _ _ h2
  · exact B.refl s

theorem moveFilmRun_follows (B : Follows R L) (h : ∀ c ∈ .filmStops :: stopCounts, L c)
    (p : Profile) (b : Bool) (s : State) : R s (moveFilmRun p b s) := by
  have h1 : L .filmStops := h _ (by simp)
  unfold moveFilmRun
  split
  · exact B.quiet rfl rfl rfl rfl
  · simp only []
    refine B.trans ?_ (applyIf_follows B fun u => ?_)
    · exact B.quiet rfl rfl rfl rfl
    · refine B.trans ?_ (raiseStop_follows B (fun c m => h c (by simp [m])) _ _)
      exact B.counts _ _ h1

theorem wrapPart_follows (B : Follows R L) (h : ∀ c ∈ wrapCounts, L c) (p : Profile) (t : Track)
    (s : State) : R s (wrapPart p t s) := by
  have h1 : L .filmOut := h _ (by simp [wrapCounts])
  unfold wrapPart
  simp only []
  refine B.trans ?_ (moveFilmRun_follows B
    (fun c m => h c (by simp [wrapCounts] at m ⊢; tauto)) _ _ _)
  refine B.trans ?_ (sealArrival_follows B
    (fun c m => h c (by simp [wrapCounts] at m ⊢; tauto)) _ _ _ _)
  refine B.trans ?_ (applyIf_follows B fun u => B.counts _ _ h1)
  exact B.quiet rfl rfl rfl rfl

/-- The counters that an arrival at REJECT may move. -/
def gateCounts : List LineCounter := .gateFaults :: .diverts :: .passes :: faultCounts

theorem gateFaults_follows (B : Follows R L) (h : ∀ c ∈ .gateFaults :: faultCounts, L c) (i : Nat)
    (k : Pocket) (s : State) : R s (gateFaults i k s) := by
  have h1 : L .gateFaults := h _ (by simp)
  have hf : ∀ c ∈ faultCounts, L c := fun c m => h c (by simp [m])
  unfold gateFaults
  simp only []
  refine B.trans (foldl_follows B
    (fun t f => handFault i f.1 f.2 false (bump .gateFaults t)) (fun u a => ?_)
    (pendingFaults k) s) ?_
  · refine B.trans ?_ (handFault_follows B hf _ _ _ _ _)
    exact B.counts _ _ h1
  · split
    · exact B.refl _
    · refine B.trans ?_ (setPocket_follows B _ _ _)
      exact applyIf_follows B fun u => dropReadBack_follows B _ _ _

theorem setGate_follows (B : Follows R L) (h : ∀ c ∈ [.diverts, .passes], L c) (i : Nat)
    (s : State) : R s (setGate i s) := by
  have h1 : L .diverts := h _ (by simp)
  have h2 : L .passes := h _ (by simp)
  unfold setGate
  split
  · exact B.refl s
  · split
    · refine B.trans ?_ (B.counts _ _ h1)
      exact B.quiet rfl rfl rfl rfl
    · refine B.trans ?_ (B.counts _ _ h2)
      exact B.quiet rfl rfl rfl rfl
    · exact B.quiet rfl rfl rfl rfl
    · exact B.refl s

theorem rejectArrival_follows (B : Follows R L) (h : ∀ c ∈ gateCounts, L c) (p : Profile)
    (s : State) : R s (rejectArrival p s) := by
  unfold rejectArrival
  split
  · exact B.refl s
  · refine B.trans ?_ (setGate_follows B (fun c m => h c (by simp [gateCounts] at m ⊢; tauto)) _ _)
    exact gateFaults_follows B (fun c m => h c (by simp [gateCounts] at m ⊢; tauto)) _ _ _

/-- The counters that an arrival at the last position may move. -/
def lastCounts : List LineCounter :=
  .stacked :: .oosExits :: .mailed :: .mailedOos :: closeCounts

theorem deliver_follows (B : Follows R L) (h : ∀ c ∈ lastCounts, L c) (i : Nat) (k : Pocket)
    (j : Nat) (c : Context) (s : State) : R s (deliver i k j c s) := by
  have hu : L .stackerUnready := h _ (by simp [lastCounts, closeCounts])
  have h1 : L (commandCounter .stack) := h _ (by simp [lastCounts, commandCounter])
  have h2 : L (commandCounter .oosExit) := h _ (by simp [lastCounts, commandCounter])
  have h3 : L (outcomeCounter .mailed) := h _ (by simp [lastCounts, outcomeCounter])
  have h4 : L (outcomeCounter .mailedOos) := h _ (by simp [lastCounts, outcomeCounter])
  unfold deliver
  split
  · simp only []
    refine B.trans ?_ (resolutionTest_follows B
      (fun c m => h c (by simp [lastCounts, m])) _ _ _)
    refine B.trans ?_ (freeContext_follows B _ _)
    refine B.trans ?_ (writeOutcome_follows B _ _ _ _ h3 _)
    refine B.trans ?_ (updateBundle_follows B _ _ _)
    refine B.trans ?_ (setPocket_follows B _ _ _)
    exact issueCommand_follows B _ h1 hu _
  · simp only []
    refine B.trans ?_ (freeContext_follows B _ _)
    refine B.trans ?_ (writeOutcome_follows B _ _ _ _ h4 _)
    refine B.trans ?_ (setPocket_follows B _ _ _)
    exact issueCommand_follows B _ h2 hu _

theorem lastArrival_follows (B : Follows R L) (h : ∀ c ∈ lastCounts, L c) (p : Profile)
    (s : State) : R s (lastArrival p s) := by
  unfold lastArrival
  split
  · exact B.refl s
  · split
    · split
      · exact B.refl s
      · exact deliver_follows B h _ _ _ _ _
    · exact B.refl s

theorem spitHead_follows (B : Follows R L) (d : Head) (s : State) : R s (spitHead d s) := by
  unfold spitHead
  simp only []
  split
  · have hb : R s (send (.spit d) (setHead d { s.headEntry d with
        countdown := (s.headEntry d).countdown - 1 } s)) :=
      B.trans (setHead_follows B _ _ _) (B.sends _ _)
    refine B.trans hb ?_
    split
    · exact endPurge_follows B _ _
    · exact B.refl _
  · exact B.refl s

/-- The counters that a part of a pitch event may move. -/
def partCounts : List LineCounter :=
  .prints :: .noPrints :: (fillCounts ++ gaugeCounts ++ wrapCounts ++ gateCounts ++ lastCounts)

theorem takePart_follows (B : Follows R L) (h : ∀ c ∈ partCounts, L c) (p : Profile) (t : Track)
    (r : Nat) (s : State) (x : PitchPart) : R s (takePart p t r s x) := by
  cases x <;> simp only [takePart]
  · exact takeFill_follows B (fun c m => h c (by simp [partCounts, m])) _ _
  · exact stationArrival_follows B _ _ _
  · exact printArrival_follows B
      (fun c m => h c (by simp [partCounts, gateCounts] at m ⊢; tauto)) _ _ _
  · exact verifyArrival_follows B _ _ _
  · exact gaugeArrival_follows B (fun c m => h c (by simp [partCounts, m])) _ _ _ _
  · exact wrapPart_follows B (fun c m => h c (by simp [partCounts, m])) _ _ _
  · exact rejectArrival_follows B (fun c m => h c (by simp [partCounts, m])) _ _
  · exact lastArrival_follows B (fun c m => h c (by simp [partCounts, m])) _ _
  · exact spitHead_follows B _ _

theorem takePitch_follows (B : Follows R L) (h : ∀ c ∈ .pitches :: .pauses :: .pagesRead ::
    partCounts, L c) (p : Profile) (r : BitVec 12) (o : List PitchPart) (s : State) :
    R s (takePitch p r o s) := by
  have h1 : L .pitches := h _ (by simp)
  have h2 : L .pagesRead := h _ (by simp)
  unfold takePitch
  simp only []
  refine B.trans ?_ (settle_follows B h2 _)
  refine B.trans ?_ (drainEndTest_follows B (fun c m => h c (by simp at m ⊢; tauto)) _)
  refine B.trans ?_ (foldl_follows B _ (fun u x =>
    takePart_follows B (fun c m => h c (by simp [m])) p _ _ u x) _ _)
  refine B.trans ?_ (B.counts _ _ h1)
  exact B.quiet rfl rfl rfl rfl

/-! ## The Page Fetcher -/

theorem writeHeader_follows (B : Follows R L) (a : Address) (x y z : Nat) (s : State) :
    R s (writeHeader a x y z s) := B.trans (B.write _ _ _) (B.write _ _ _)

theorem refusePage_follows (B : Follows R L) (h : L .pagesRefused) (a : Address) (d : PageHeader)
    (c : RefusalCause) (i : Nat) (s : State) : R s (refusePage a d c i s) := by
  unfold refusePage
  simp only []
  refine B.trans ?_ (B.counts _ _ h)
  refine B.trans ?_ (B.raised _ _)
  refine B.trans ?_ (setFetch_follows B _ (by simp) _)
  refine B.trans ?_ (statusWrite_follows B _ _ _)
  exact B.trans (writeHeader_follows B a pageRefused c.code i s) (B.quiet rfl rfl rfl rfl)

theorem takeRecord_follows (B : Follows R L) (h : L .notProduced) (p : Profile) (n k : Nat)
    (pos : FilePosition) (r : RecordFields) (s : State) : R s (takeRecord p n k pos r s) := by
  unfold takeRecord
  split
  · exact writeOutcome_follows B _ _ _ .notProduced h _
  · simp only []
    have hb : ∀ c : Bool, R s (applyIf c
        (updatePage n fun q => { q with bundlesOpen := q.bundlesOpen + 1 }) s) :=
      fun c => applyIf_follows B fun u => updatePage_follows B _ _ _
    refine B.trans (hb (decide (1 ≤ r.size))) ?_
    refine B.trans ?_ (refreshHolds_follows B _)
    exact B.quiet rfl rfl rfl rfl

theorem takeRecords_follows (B : Follows R L) (h : L .notProduced) (p : Profile) (n k : Nat)
    (pos : FilePosition) (rs : List RecordFields) (s : State) :
    R s (takeRecords p n k pos rs s) := by
  induction rs generalizing k pos s with
  | nil => exact B.refl s
  | cons r rs ih => exact B.trans (takeRecord_follows B h p n k pos r s) (ih _ _ _)

theorem withdrawBundle_follows (B : Follows R L) (h : ∀ c ∈ closeCounts, L c) (p : Profile)
    (o n : Nat) (s : State) : R s (withdrawBundle p o n s) := by
  unfold withdrawBundle
  simp only []
  refine B.trans ?_ (resolutionTest_follows B h _ _ _)
  exact B.trans (countAndTest_follows B _ _ _) (expiryTest_follows B _ _)

theorem breakTail_follows (B : Follows R L) (h : ∀ c ∈ closeCounts, L c) (p : Profile)
    (s : State) : R s (breakTail p s) := by
  unfold breakTail
  split
  · exact B.refl s
  · split
    · exact B.refl s
    · split
      · exact B.refl s
      · simp only []
        split
        · exact B.quiet rfl rfl rfl rfl
        · exact withdrawBundle_follows B h _ _ _ _

theorem skipRecords_follows (B : Follows R L) (h : L .notProduced) (d : HeldPage) (s : State) :
    R s (skipRecords d s) := by
  unfold skipRecords
  refine foldl_follows B _ (fun u k => ?_) _ _
  unfold skipRecord
  simp only []
  refine B.trans ?_ (B.counts _ _ h)
  refine B.trans ?_ (B.write _ _ _)
  exact writeOutcomeHalf_follows B _ _ _ _

end Sys2Proof.Machine
end

