-- ==== Sys2Proof/Laws/Counts.lean ====
section
/-! SUPPORT. The counters one by one: what a count does, and which counters an operation leaves; and what
was sent only grows, an open link stays open, an attention bit stays set. -/

namespace Sys2Proof.Machine

/-- The counters in the order of their places, 53 left out. -/
def countersInOrder : List LineCounter :=
  [.pitches, .reverseCounts, .pagesRead, .pagesLoaded, .pagesRefused, .pagesSkipped, .mailed,
   .mailedOos, .failed, .notProduced, .newFed, .remakesFed, .gapsFed, .starvedGaps, .stationFaults,
   .gaugeGood, .gaugeShort, .gaugeOver, .gaugeSkips, .zeroUpdates, .gaugeDrifts, .prints, .noPrints,
   .headErrors, .headStrays, .readMatch, .readCorrected, .readNoread, .readPrintData, .readMismatch,
   .readStrays, .purges, .headSwaps, .slips, .filmOut, .wrapFaults, .filmStops, .runaways, .sealOut,
   .sealFaults, .firstFaults, .laterFaults, .remakesQueued, .gateFaults, .suspectFaults, .diverts,
   .passes, .bundlesOpened, .bundlesComplete, .bundlesShort, .bundlesAborted, .stacked, .oosExits,
   .oosExits, .ejects, .trayBreaks, .stackerStops, .stackerUnready, .starts, .pauses, .halts, .drains,
   .requests, .interrupts]

theorem countersInOrder_get (c : LineCounter) : countersInOrder[c.index.val]? = some c := by
  cases c <;> rfl

/-- Two counters of one place are one (R189). -/
theorem LineCounter.index_injective {c d : LineCounter} (h : c.index = d.index) : c = d := by
  have hc := countersInOrder_get c
  rw [h, countersInOrder_get d] at hc
  exact (Option.some.inj hc).symm

@[simp] theorem NotCounted.refl (c : LineCounter) (s : State) : NotCounted c s s := ⟨rfl, rfl⟩

theorem NotCounted.trans {c : LineCounter} {s t u : State} (h : NotCounted c s t)
    (k : NotCounted c t u) : NotCounted c s u := ⟨k.1.trans h.1, k.2.trans h.2⟩

/-- A count, after steps that leave the counter. -/
theorem Counted.after {c : LineCounter} {s t u : State} (h : NotCounted c s t)
    (k : Counted c t u) : Counted c s u := by
  unfold Counted at *; rw [k.1, k.2, h.1, h.2]; exact ⟨rfl, rfl⟩

/-- A count, before steps that leave the counter. -/
theorem Counted.before {c : LineCounter} {s t u : State} (h : Counted c s t)
    (k : NotCounted c t u) : Counted c s u := by
  unfold Counted at *; rw [k.1, k.2]; exact h

theorem bump_counted (c : LineCounter) (s : State) : Counted c s (bump c s) := by
  constructor <;> simp [bump, Vector.get_eq_getElem]

theorem bump_notCounted {c d : LineCounter} (h : d ≠ c) (s : State) : NotCounted c s (bump d s) := by
  have hn : d.index.val ≠ c.index.val := fun e => h (LineCounter.index_injective (Fin.ext e))
  constructor <;> simp [bump, Vector.get_eq_getElem, hn]

theorem notCounted_quiet {c : LineCounter} {s t : State} (h : t.counters = s.counters) :
    NotCounted c s t := by unfold NotCounted; rw [h]; exact ⟨rfl, rfl⟩

theorem setAttentionBit_notCounted {c : LineCounter} (h : c ≠ .interrupts) (a : Attention)
    (s : State) : NotCounted c s (setAttentionBit a s) := by
  unfold setAttentionBit
  split
  · exact .refl _ _
  · simp only []
    split
    · exact notCounted_quiet rfl
    · split
      · exact NotCounted.trans (notCounted_quiet (by simp [send])) (bump_notCounted (Ne.symm h) _)
      · exact notCounted_quiet rfl

theorem handOver_write_counters (a : Address) (d : List Byte) (s : State) :
    (handOver (.write a d) s).counters = s.counters := by
  unfold handOver; split
  · rfl
  · split <;> rfl

theorem handOver_read_counters (a : Address) (n : Nat) (s : State) :
    (handOver (.read a n) s).counters = s.counters := by
  unfold handOver; split
  · rfl
  · split <;> rfl

theorem issueRead_counters (k : ReadKind) (ps : List (Address × Nat)) (s : State) :
    (issueRead k ps s).counters = s.counters := by
  unfold issueRead
  suffices h : ∀ t : State, t.counters = s.counters →
      (ps.foldl (fun t p => handOver (.read p.1 p.2) t) t).counters = s.counters from h _ rfl
  induction ps with
  | nil => exact fun t h => h
  | cons p ps ih => exact fun t h => ih _ (by rw [handOver_read_counters, h])

theorem raise_notCounted {c : LineCounter} (h : c ≠ .interrupts) (a : Attention) (s : State) :
    NotCounted c s (raise a s) := by
  unfold raise; split
  · exact setAttentionBit_notCounted h a s
  · exact notCounted_quiet rfl

/-- An operation leaves each counter that it does not count, but for INTERRUPTS. -/
theorem follows_notCounted {c : LineCounter} (h : c ≠ .interrupts) :
    Follows (NotCounted c) (fun d => d ≠ c) where
  trans := .trans
  quiet := fun _ k _ _ => notCounted_quiet k
  write := fun a d s => notCounted_quiet (handOver_write_counters a d s)
  read := fun k ps s => notCounted_quiet (issueRead_counters k ps s)
  raised := fun a s => raise_notCounted h a s
  sends := fun _ _ => notCounted_quiet rfl
  counts := fun _ s k => bump_notCounted k s
  fetch := fun _ _ _ => notCounted_quiet rfl

/-! ## The station bank -/

/-- The station bank is the same. -/
def SameStationBank (s t : State) : Prop :=
  t.counters.stationTotal = s.counters.stationTotal ∧
  t.counters.stationInterval = s.counters.stationInterval

theorem setAttentionBit_stationBank (a : Attention) (s : State) :
    SameStationBank s (setAttentionBit a s) := by
  unfold setAttentionBit
  split
  · exact ⟨rfl, rfl⟩
  · simp only []
    split
    · exact ⟨rfl, rfl⟩
    · split <;> exact ⟨rfl, rfl⟩

/-- No operation of the line bank moves the station bank. -/
theorem follows_stationBank : Follows SameStationBank (fun _ => True) where
  trans := fun h k => ⟨k.1.trans h.1, k.2.trans h.2⟩
  quiet := fun _ k _ _ => by unfold SameStationBank; rw [k]; exact ⟨rfl, rfl⟩
  write := fun a d s => by
    unfold SameStationBank hostWrite; rw [handOver_write_counters]; exact ⟨rfl, rfl⟩
  read := fun k ps s => by unfold SameStationBank; rw [issueRead_counters]; exact ⟨rfl, rfl⟩
  raised := fun a s => by
    unfold raise; split
    · exact setAttentionBit_stationBank a s
    · exact ⟨rfl, rfl⟩
  sends := fun _ _ => ⟨rfl, rfl⟩
  counts := fun _ _ _ => ⟨rfl, rfl⟩
  fetch := fun _ _ _ => ⟨rfl, rfl⟩

/-! ## The link -/

/-- What was sent only grows, an open link stays open, and an attention bit stays set. -/
def Flows (s t : State) : Prop :=
  (∃ more, t.sent = s.sent ++ more) ∧ (LinkOpen s → LinkOpen t) ∧
  ∀ i, s.link.attention.getLsbD i = true → t.link.attention.getLsbD i = true

theorem Flows.trans {s t u : State} (h : Flows s t) (k : Flows t u) : Flows s u := by
  obtain ⟨⟨a, ha⟩, ho, hb⟩ := h
  obtain ⟨⟨b, hc⟩, hp, hd⟩ := k
  exact ⟨⟨a ++ b, by rw [hc, ha, List.append_assoc]⟩, fun o => hp (ho o), fun i m => hd i (hb i m)⟩

theorem flows_quiet {s t : State} (h : t.link = s.link) (k : t.sent = s.sent)
    (f : t.fetcher.state = s.fetcher.state) : Flows s t := by
  refine ⟨⟨[], by simp [k]⟩, ?_, ?_⟩
  · unfold LinkOpen; rw [h, f]; exact id
  · rw [h]; exact fun _ => id

theorem bump_flows (c : LineCounter) (s : State) : Flows s (bump c s) := flows_quiet rfl rfl rfl

theorem send_flows (m : Message) (s : State) : Flows s (send m s) :=
  ⟨⟨[m], rfl⟩, fun h => h, fun _ h => h⟩

theorem setAttentionBit_flows (c : Attention) (s : State) : Flows s (setAttentionBit c s) := by
  unfold setAttentionBit
  split
  · exact flows_quiet rfl rfl rfl
  · simp only []
    have h : Flows s { s with link := { s.link with attention := s.link.attention ||| c.word } } :=
      ⟨⟨[], by simp⟩, fun o => o, fun i m => by simp [m]⟩
    split
    · exact h
    · split
      · exact h.trans ((send_flows _ _).trans (bump_flows _ _))
      · exact h

theorem handOver_flows (item : LinkItem) (s : State) : Flows s (handOver item s) := by
  unfold handOver
  split
  · exact flows_quiet rfl rfl rfl
  · split
    · unfold performItem; split
      · exact send_flows _ _
      · exact send_flows _ _
      · exact setAttentionBit_flows _ _
    · rename_i hc
      refine ⟨⟨[], by simp [waitItem]⟩, fun o => ?_, fun _ h => h⟩
      obtain ⟨_, _, ha, hw⟩ := o
      simp [ha, hw] at hc

theorem raise_flows (c : Attention) (s : State) : Flows s (raise c s) := by
  unfold raise
  split
  · exact setAttentionBit_flows _ _
  · rename_i hc
    refine ⟨⟨[], by simp [waitItem]⟩, fun o => ?_, fun _ h => h⟩
    obtain ⟨_, _, _, hw⟩ := o
    simp [hw] at hc

theorem issueRead_flows (k : ReadKind) (ps : List (Address × Nat)) (s : State) :
    Flows s (issueRead k ps s) := by
  unfold issueRead
  have h : Flows s { s with link := { s.link with outstanding := s.link.outstanding ++ [k] } } :=
    ⟨⟨[], by simp⟩, fun o => o, fun _ m => m⟩
  refine h.trans ?_
  generalize ({ s with link := { s.link with outstanding := s.link.outstanding ++ [k] } } : State) = t
  induction ps generalizing t with
  | nil => exact flows_quiet rfl rfl rfl
  | cons p ps ih => exact (handOver_flows _ _).trans (ih _)

/-- Every operation but a failure and a reset flows. -/
theorem follows_flows : Follows Flows (fun _ => True) where
  trans := .trans
  quiet := fun h _ k f => flows_quiet h k f
  write := fun _ _ _ => handOver_flows _ _
  read := issueRead_flows
  raised := raise_flows
  sends := send_flows
  counts := fun _ _ _ => bump_flows _ _
  fetch := fun f s h => ⟨⟨[], by simp⟩, fun o => ⟨o.1, h, o.2.2.1, o.2.2.2⟩, fun _ m => m⟩

/-! ## With the link open -/

/-- A write goes out at once (R25). -/
theorem hostWrite_open {s : State} (h : LinkOpen s) (a : Address) (d : List Byte) :
    hostWrite a d s = send (.write a d) s := by
  obtain ⟨he, hf, ha, hw⟩ := h
  simp [hostWrite, handOver, accessStopped, he, hf, ha, hw, performItem]

/-- A read goes out at once. -/
theorem issueRead_open {s : State} (h : LinkOpen s) (k : ReadKind) (a : Address) (n : Nat) :
    issueRead k [(a, n)] s = send (.read a n)
      { s with link := { s.link with outstanding := s.link.outstanding ++ [k] } } := by
  obtain ⟨he, hf, ha, hw⟩ := h
  simp [issueRead, handOver, accessStopped, he, hf, ha, hw, performItem]

/-- A cause sets its bit at once (R186). -/
theorem raise_open {s : State} (h : LinkOpen s) (c : Attention) : raise c s = setAttentionBit c s := by
  obtain ⟨_, _, _, hw⟩ := h
  simp [raise, hw]

theorem setAttentionBit_set (c : Attention) (s : State) :
    (setAttentionBit c s).link.attention.getLsbD c.bit = true := by
  have hb : c.bit < 12 := by cases c <;> decide
  unfold setAttentionBit
  split
  · assumption
  · simp only []
    have h : (s.link.attention ||| c.word).getLsbD c.bit = true := by
      simp [Attention.word, hb]
    split
    · exact h
    · split
      · simpa [bump, send] using h
      · exact h

theorem raise_set {s : State} (h : LinkOpen s) (c : Attention) :
    (raise c s).link.attention.getLsbD c.bit = true := by
  rw [raise_open h]; exact setAttentionBit_set c s

/-- The bit of a cause sends at most its one interrupt message. -/
theorem setAttentionBit_sent (c : Attention) (s : State) :
    (setAttentionBit c s).sent = s.sent ∨
    ∃ a, (setAttentionBit c s).sent = s.sent ++ [.interrupt a c] := by
  unfold setAttentionBit
  split
  · exact .inl rfl
  · simp only []
    split
    · exact .inl rfl
    · split
      · exact .inr ⟨_, rfl⟩
      · exact .inl rfl

end Sys2Proof.Machine
end

