-- ==== Sys2Proof/Laws/Pitch.lean ====
section
/-! SUPPORT. What the parts of a pitch event leave as it was. -/

namespace Sys2Proof.Machine

@[simp] theorem advanceTable_frame (p : Profile) (s : State) :
    SameButPieces (advanceTable p s) s := by
  simp [advanceTable, SameButPieces, LinkKept]

@[simp] theorem placePocket_frame (p : Profile) (k : Pocket) (s : State) :
    SameButPieces (placePocket p k s) s := by
  simp [placePocket, SameButPieces, LinkKept]

@[simp] theorem feedGap_frame (p : Profile) (s : State) : SameButPieces (feedGap p s) s := by
  simp [feedGap, SameButPieces, LinkKept]

@[simp] theorem feedRemake_frame (p : Profile) (r : Remake) (rest : List Remake) (s : State) :
    SameButPieces (feedRemake p r rest s) s := by
  unfold feedRemake
  simp only []
  split <;> simp [SameButPieces, LinkKept]

@[simp] theorem openBundle_frame (r : Staged) (s : State) : SameButPieces (openBundle r s) s := by
  simp [openBundle, SameButPieces, LinkKept]

@[simp] theorem feedNew_frame (p : Profile) (r : Staged) (rest : List Staged) (i : Nat)
    (s : State) : SameButPitch (feedNew p r rest i s) s := by
  unfold feedNew applyIf
  simp only []
  split <;> simp [SameButPitch, LinkKept]

@[simp] theorem fillIntake_frame (p : Profile) (s : State) :
    SameButPitch (fillIntake p s).1 s := by
  unfold fillIntake applyIf
  simp only []
  split
  · simp [SameButPitch, LinkKept]
  · split
    · simp [SameButPitch, LinkKept]
    · split
      · simp [SameButPitch, LinkKept]
      · split
        · split <;> simp [SameButPitch, LinkKept]
        · simp only []; split <;> simp [SameButPitch, LinkKept]

@[simp] theorem updateWindow_frame (o : Option Nat) (s : State) :
    SameButPitch (updateWindow o s) s := by
  unfold updateWindow; split <;> simp [SameButPitch, LinkKept]

@[simp] theorem takeFill_frame (p : Profile) (s : State) : SameButPitch (takeFill p s) s := by
  simp [takeFill, SameButPitch, LinkKept]

@[simp] theorem stationArrival_frame (p : Profile) (n : Fin 12) (s : State) :
    SameButPitch (stationArrival p n s) s := by
  unfold stationArrival
  simp only []
  split
  · simp [SameButPitch, LinkKept]
  · split
    · simp [SameButPitch, LinkKept]
    · split
      · split <;> simp [SameButPitch, LinkKept]
      · split <;> simp [SameButPitch, LinkKept]
      · split <;> simp [SameButPitch, LinkKept]
      · simp [SameButPitch, LinkKept]

@[simp] theorem printArrival_frame (p : Profile) (t : Track) (s : State) :
    SameButPitch (printArrival p t s) s := by
  unfold printArrival
  split
  · split
    · simp [SameButPitch, LinkKept]
    · split <;> simp [SameButPitch, LinkKept]
  · simp [SameButPitch, LinkKept]

@[simp] theorem dropReadBack_frame (i : Nat) (k : Pocket) (s : State) :
    SameButPitch (dropReadBack i k s) s := by simp [dropReadBack, SameButPitch, LinkKept]

@[simp] theorem verifyArrival_frame (p : Profile) (t : Track) (s : State) :
    SameButPitch (verifyArrival p t s) s := by
  unfold verifyArrival
  split
  · simp [SameButPitch, LinkKept]
  · split
    · split <;> simp [SameButPitch, LinkKept]
    · simp [SameButPitch, LinkKept]

@[simp] theorem trackZero_frame (r : Nat) (s : State) : SameButGauge (trackZero r s) s := by
  simp [trackZero, SameButGauge, LinkKept]

@[simp] theorem driftCheck_frame (p : Profile) (s : State) : SameButGauge (driftCheck p s) s := by
  unfold driftCheck; split <;> simp [SameButGauge, LinkKept]

@[simp] theorem calibrationReading_frame (r : Nat) (s : State) :
    SameButGauge (calibrationReading r s) s := by
  simp [calibrationReading, SameButGauge, LinkKept]

@[simp] theorem classify_frame (p : Profile) (r i : Nat) (k : Pocket) (s : State) :
    SameButPieces (classify p r i k s) s := by
  unfold classify
  simp only []
  split <;> simp [SameButPieces, LinkKept]

@[simp] theorem skipGauge_frame (k : Pocket) (s : State) : SameButPieces (skipGauge k s) s := by
  simp [skipGauge, SameButPieces, LinkKept]

@[simp] theorem gaugeArrival_frame (p : Profile) (t : Track) (r : Nat) (s : State) :
    SameButPitch (gaugeArrival p t r s) s := by
  unfold gaugeArrival
  split
  · simp [SameButPitch, LinkKept]
  · split
    · split <;> simp [SameButPitch, LinkKept]
    · split
      · split <;> simp [SameButPitch, LinkKept]
      · simp [SameButPitch, LinkKept]

@[simp] theorem sealArrival_frame (p : Profile) (t : Track) (b : Bool) (s : State) :
    SameButPitch (sealArrival p t b s) s := by
  unfold sealArrival applyIf
  simp only []
  split
  · split <;> split <;> simp [SameButPitch, LinkKept]
  · simp [SameButPitch, LinkKept]

@[simp] theorem moveFilmRun_frame (p : Profile) (b : Bool) (s : State) :
    SameButPitch (moveFilmRun p b s) s := by
  unfold moveFilmRun applyIf
  simp only []
  split
  · simp [SameButPitch, LinkKept]
  · split <;> simp [SameButPitch, LinkKept]

@[simp] theorem wrapPart_frame (p : Profile) (t : Track) (s : State) :
    SameButPitch (wrapPart p t s) s := by
  unfold wrapPart applyIf
  simp only []
  split <;> simp [SameButPitch, LinkKept]

theorem gateFold_frame (i : Nat) (l : List (FaultCause × Option (Fin 12))) (s : State) :
    SameButPieces (l.foldl (fun t f => handFault i f.1 f.2 false (bump .gateFaults t)) s) s := by
  induction l generalizing s with
  | nil => simp [SameButPieces, LinkKept]
  | cons f l ih =>
    have h := ih (handFault i f.1 f.2 false (bump .gateFaults s))
    simpa [SameButPieces, LinkKept] using h

@[simp] theorem gateFaults_frame (i : Nat) (k : Pocket) (s : State) :
    SameButPitch (gateFaults i k s) s := by
  have h := gateFold_frame i (pendingFaults k) s
  unfold gateFaults applyIf
  simp only [SameButPieces, LinkKept] at h
  simp only []
  split
  · simp [SameButPitch, LinkKept, h]
  · split <;> simp [SameButPitch, LinkKept, h]

@[simp] theorem setGate_frame (i : Nat) (s : State) : SameButPitch (setGate i s) s := by
  unfold setGate
  split
  · simp [SameButPitch, LinkKept]
  · split <;> simp [SameButPitch, LinkKept]

@[simp] theorem rejectArrival_frame (p : Profile) (s : State) :
    SameButPitch (rejectArrival p s) s := by
  unfold rejectArrival; split <;> simp [SameButPitch, LinkKept]

@[simp] theorem deliver_frame (i : Nat) (k : Pocket) (j : Nat) (c : Context) (s : State) :
    SameButPitch (deliver i k j c s) s := by
  unfold deliver; split <;> simp [SameButPitch, LinkKept]

@[simp] theorem lastArrival_frame (p : Profile) (s : State) :
    SameButPitch (lastArrival p s) s := by
  unfold lastArrival
  split
  · simp [SameButPitch, LinkKept]
  · split
    · split <;> simp [SameButPitch, LinkKept]
    · simp [SameButPitch, LinkKept]

@[simp] theorem spitHead_frame (h : Head) (s : State) : SameButPrint (spitHead h s) s := by
  unfold spitHead
  simp only []
  split
  · split <;> simp [SameButPrint, LinkKept]
  · simp [SameButPrint, LinkKept]

@[simp] theorem takePart_frame (p : Profile) (t : Track) (r : Nat) (s : State) (x : PitchPart) :
    SameButPitch (takePart p t r s x) s := by
  cases x <;> simp [takePart, SameButPitch, LinkKept]

theorem takeParts_frame (p : Profile) (t : Track) (r : Nat) (l : List PitchPart) (s : State) :
    SameButPitch (l.foldl (takePart p t r) s) s := by
  induction l generalizing s with
  | nil => simp [SameButPitch, LinkKept]
  | cons x l ih => have h := ih (takePart p t r s x); simpa [SameButPitch, LinkKept] using h

@[simp] theorem takePitch_frame (p : Profile) (r : BitVec 12) (o : List PitchPart) (s : State) :
    SameButPitch (takePitch p r o s) s := by
  have h := takeParts_frame p (advanceTable p s).track r.toNat (partOrder o)
    (bump .pitches (advanceTable p s))
  simp only [SameButPitch, LinkKept] at h
  unfold takePitch
  simp [SameButPitch, LinkKept, h]

end Sys2Proof.Machine
end

