-- ==== Sys2Proof/Laws/Status.lean ====
section
/-! SUPPORT. The fields of the status section: what is written stays written, a write with the link open
writes its field, and the fields follow through a chain of operations. -/

namespace Sys2Proof.Machine

/-- What has been written stays written. -/
theorem Written.later {a : Address} {d : List Byte} {s t u : State} (h : Written a d s t)
    (k : t.sent <+: u.sent) : Written a d s u := by
  obtain ⟨b, e, m, r⟩ := h
  exact ⟨b, e, (k.drop s.sent.length).subset m, r⟩

/-- A write counts from every earlier state on. -/
theorem Written.since {a : Address} {d : List Byte} {s t u : State} (k : s.sent <+: t.sent)
    (h : Written a d t u) : Written a d s u := by
  obtain ⟨b, e, m, r⟩ := h
  refine ⟨b, e, ?_, r⟩
  have := k.length_le
  rw [← Nat.add_sub_cancel' this, ← List.drop_drop] at m
  exact List.mem_of_mem_drop m

/-- With the link open a write to a field has written it (R188). -/
theorem statusWrite_written {s : State} (h : LinkOpen s) (o : Nat) (d : List Byte) :
    Written (controlBlock s + o) d s (statusWrite o d s) := by
  refine ⟨controlBlock s + o, d, ?_, le_rfl, by simp⟩
  simp [statusWrite, hostWrite_open h, send]

/-- A value that has not changed asks for no write. -/
theorem FieldFollows.quiet {o n : Nat} {v : State → Nat} {s t : State} (h : v t = v s) :
    FieldFollows o n v s t := fun k => absurd h k

/-- A field follows through two operations if it follows through each. -/
theorem FieldFollows.trans {o n : Nat} {v : State → Nat} {s t u : State}
    (hc : controlBlock t = controlBlock s) (hs : s.sent <+: t.sent) (ht : t.sent <+: u.sent)
    (h : FieldFollows o n v s t) (k : FieldFollows o n v t u) : FieldFollows o n v s u := by
  intro hv
  by_cases e : v u = v t
  · rw [e] at hv ⊢; exact (h hv).later ht
  · exact hc ▸ (k e).since hs

end Sys2Proof.Machine
end

