-- ==== Sys2Proof/Tests/Slice0.lean ====
section
/-! SUPPORT. Tests: each ill-formed operand refused by WellFormed, one step of each command on a small
state against values worked out from the spec's rules, and for each statement with hypotheses a state
that meets them. -/

namespace Sys2Proof.Machine.Tests

set_option Elab.async false

/-! ## Sample states -/

/-- Stations 0, 2 and 11 at positions 1, 2 and 3, with the thicknesses of the example of R95 (E 4100). -/
def stationProfile (n : Fin 12) : StationProfile :=
  let on (position thickness : Nat) : StationProfile :=
    { fitted := 1, position := position, thickness := thickness, missLimit := 3, doubleLimit := 3,
      faultAction := 1 }
  if n = 0 then on 1 3800 else if n = 2 then on 2 180 else if n = 11 then on 3 120
  else { fitted := 0, position := 0, thickness := 0, missLimit := 0, doubleLimit := 0,
         faultAction := 0 }

/-- A short line with the gauge, film and seal values of the spec's examples. -/
def job : Profile :=
  { windowBase := 0x100000, windowLimit := 0x200000, firstPage := 0x100000, jobTag := 7,
    trackLen := 16, cpp := 100, remakeLimit := 1, tailGaps := 5, printPos := 5, verifyPos := 7,
    gaugePos := 8, sealPos := 10, rejectPos := 12, headAFitted := true, headBFitted := true,
    headFailLimit := 3, purgeSpits := 4, gaugeFitted := 1, scale := 40, initialZero := 210,
    wFixed := 150, wPm := 30, driftLim := 20, fNom := 100, fTol := 10, filmFaultLimit := 3,
    sealLow := 1500, sealHigh := 1800, sealHyst := 20, stations := Vector.ofFn stationProfile }

/-- ENABLE set, an interrupt address configured, every cause masked in, the three inputs good. -/
def enabled : State :=
  { State.reset with
    link := { Link.reset with enable := true, mask := 0xFFF, interruptAddress := some 0xFEE00000 }
    inputs := { guardClosed := true, driveReady := true, stackerReady := true } }

/-- A job just loaded (R171). -/
def ready : State := initJobState job enabled

/-- The hold-cause set brought up to date (R63). -/
def current (s : State) : State := { s with intake := { s.intake with holds := holdsNow s } }

/-- The line state, and head A printing. -/
def inLine (l : Line) : State :=
  current { ready with
    line := l
    print := { ready.print with headA := { ready.print.headA with state := .active } } }

def runningLine : Line := { Line.reset with state := .running, runEnable := true }

def running : State := inLine runningLine

def paused : State := inLine { Line.reset with state := .paused, stop := .request }

def halted : State :=
  inLine { Line.reset with state := .halted, halt := .guardOpen, quickStop := true }

def draining (kind : DrainKind) : State :=
  inLine { Line.reset with state := .draining, drain := some kind, runEnable := true }

def complete : State := inLine { Line.reset with state := .complete, fileExhausted := true }

/-- The request of a slot 1 with this code and parameters, in a phase. -/
def request (code : Nat) (param0 param1 : Nat := 0) (phase : Phase := .handed) : Request :=
  { slot := 1, code := code, hostTag := 0xABCD, param0 := param0, param1 := param1, param2 := 0,
    param3 := 0, phase := phase }

def asking (r : Request) (s : State) : State := { s with request := some r }

/-- A pocket of serial 9 with its context in entry 0. -/
def pocket (state : PocketState) : Pocket :=
  { serial := 9, kind := .new, state := state, subscriber := some { context := 0, serial := 1001 },
    attempt := some 1, sort := some .inSort, feed := 0x805,
    pend := { stations := 0x805, headAck := true, readBack := true }, fault := none,
    printedBy := some .a, thickness := none, verify := none }

/-- The context of subscriber 1001: the first record of the page in slot 0. -/
def context : Context :=
  { pageSlot := 0, recordSlot := 0, serial := 1001, ordinal := 1, selection := 0x805,
    lines := [[65, 66]], checkValue := 1023, attempts := 1, lastPocket := 9, sort := .inSort,
    lastFault := none, bypassed := 0, gaugeSkipped := false, verifyCorrected := false }

/-- A bundle of two, both fed. -/
def bundle : Bundle :=
  { ordinal := 1, size := 2, trayEnd := true, pageSlot := 0, recordSlot := 0, state := .tailing,
    fed := 2, delivered := 0, outOfSort := 0, failed := 0, withdrawn := 0, broken := false }

def page : OpenPage :=
  { slot := 0, address := 0x100000, sequence := 1, count := 2, final := 0, bundlesOpen := 1,
    tailRole := true, ends := false }

def readBack : ReadBack := { pocket := 9, head := .a, serial := 1001, checkValue := 1023 }

/-- A pocket at a position, with its context, its bundle, its page and its read-back entry. -/
def holding (k : Pocket) (position : Nat) (s : State) : State :=
  current { s with
    track := s.track.setPocket position (some k)
    contexts := s.contexts.set 0 (some context)
    bundles := [bundle]
    fetcher := { s.fetcher with
      state := .waiting, source := .page 0x100000, heldLink := 0, expected := 2, pages := [page] }
    print := { s.print with readBacks := [readBack] } }

/-- A LIVE pocket at a position of a running line. -/
def live (position : Nat) : State := holding (pocket .live) position running

/-- The pocket of serial 9 is FAULTED, and the remake of its subscriber has been fed, with serial 12. -/
def remade (position : Nat) : State :=
  let s := holding (pocket .faulted) position running
  { s with contexts := s.contexts.set 0 (some { context with attempts := 2, lastPocket := 12 }) }

/-- The state after a command. -/
def after (c : Instr) (s : State) : State :=
  match exec c s with
  | .next t => t
  | .fault _ => s
  | .refused _ => s

/-- A scan of the request section is awaited. -/
def scanned : State := { enabled with link := { enabled.link with outstanding := [.requestSection] } }

/-- A staged record that opens a bundle. -/
def opening : Staged :=
  { serial := 1001, key := 40, size := 2, selection := 0x805, trayEnd := false, lines := [[65, 66]],
    ordinal := 1, pageSlot := 0, recordSlot := 0, checkValue := 1023, broken := false,
    withdrawn := 0 }

def remake : Remake := { context := 0, serial := 1001, ordinal := 1, sort := .inSort, attempt := 2 }

/-- Bytes with fields placed in them. -/
def bytesWith (length : Nat) (fields : List (Nat × List Byte)) : List Byte :=
  fields.foldl (fun d f => d.take f.1 ++ f.2 ++ d.drop (f.1 + f.2.length)) (List.replicate length 0)

/-! ## WellFormed: one ill-formed operand for each check -/

theorem test_wellFormed_registerWrite_own : (Instr.registerWrite 0x08 0).wellFormed = false := by
  decide
theorem test_wellFormed_registerWrite_mask : (Instr.registerWrite 0x0C 1).wellFormed = true := by
  decide
theorem test_wellFormed_pitch_missing_part : (Instr.pitchEvent 0 [.fill]).wellFormed = false := by
  decide
theorem test_wellFormed_pitch_twice :
    (Instr.pitchEvent 0 (.fill :: PitchPart.all)).wellFormed = false := by decide
theorem test_wellFormed_pitch : (Instr.pitchEvent 0 PitchPart.all.reverse).wellFormed = true := by
  decide
theorem test_wellFormed_serial : (Instr.read 0 0 0x1000000 0 false true).wellFormed = false := by
  decide
theorem test_wellFormed_link :
    (Instr.linkReadDone ⟨.awaited, [0, 0, 0, 0]⟩).wellFormed = false := by decide
theorem test_wellFormed_header :
    (Instr.headerReadDone ⟨.awaited, List.replicate 63 0⟩).wellFormed = false := by decide
theorem test_wellFormed_records_none :
    (Instr.recordsReadDone ⟨.awaited, []⟩).wellFormed = false := by decide
theorem test_wellFormed_records_part :
    (Instr.recordsReadDone ⟨.awaited, List.replicate 225 0⟩).wellFormed = false := by decide +kernel
theorem test_wellFormed_profile :
    (Instr.profileReadDone ⟨.awaited, List.replicate 255 0⟩).wellFormed = false := by decide +kernel
theorem test_wellFormed_section :
    (Instr.requestSectionReadDone ⟨.awaited, List.replicate 64 0⟩).wellFormed = false := by decide +kernel

/-! ## Formats and arithmetic -/

/-- R103 over its two arithmetic examples: bytes 0 7 0 1 2 2 65 66. -/
theorem test_checkValue_AB : checkValue 7 258 [[65, 66]] = 1023 := by decide
theorem test_checkValue_order : checkValue 7 258 [[66, 65]] = 1022 := by decide
/-- R1: one step of the two channels forward, one back, and a change of both. -/
theorem test_decodeEdge : decodeEdge (false, false) (true, false) = some true ∧
    decodeEdge (true, false) (false, false) = some false ∧
    decodeEdge (false, false) (true, true) = none := by decide
/-- R8: after the largest serial comes 1. -/
theorem test_serialAfter_wraps : serialAfter 0xFFFFFFFF = 1 := by decide
/-- R92 to R95 with r 1930, zero 3360, scale 40, E 4100. -/
theorem test_gauge_good : thicknessOf 1930 3360 40 = 4300 ∧ toleranceOf job 4100 = 273 ∧
    verdictOf 4300 4100 273 = .good := by decide
theorem test_gauge_verdicts : thicknessOf 3450 3360 40 = 8100 ∧ verdictOf 8100 4100 273 = .over ∧
    thicknessOf 150 3360 40 = 0 ∧ verdictOf 0 4100 273 = .short ∧ verdictOf 3827 4100 273 = .good ∧
    verdictOf 3826 4100 273 = .short ∧ verdictOf 4374 4100 273 = .over := by decide
/-- R89: below the range 0, at its top and above 4095. -/
theorem test_convert_clamps : (convert (-1)).toNat = 0 ∧ (convert 0).toNat = 0 ∧
    (convert 4094).toNat = 4094 ∧ (convert 4095).toNat = 4095 ∧ (convert 4096).toNat = 4095 := by decide
theorem test_zero_steps : zeroAfter 3360 214 = 3368 ∧ zeroAfter 3360 205 = 3350 ∧
    zeroAfter 3360 206 = 3352 ∧ zeroAfter 3360 210 = 3360 ∧ zeroAfter 3365 210 = 3365 := by decide
theorem test_sample_profile_valid : job.firstFailure = none := by decide +kernel

/-! ## One step of each command -/

theorem test_powerOn_idle : (after .powerOn running).line.state = .idle := by decide +kernel
theorem test_softReset_keeps_address :
    (after (.softReset true) running).link.interruptAddress = some 0xFEE00000 ∧
    (after (.softReset true) running).link.enable = false := by decide +kernel
theorem test_enable_held_while_loaded : (after (.enable false) ready).link.enable = true := by
  decide +kernel
theorem test_enable_cleared_in_idle : (after (.enable false) enabled).link.enable = false := by
  decide +kernel
theorem test_attentionClear :
    (after (.attentionClear 0x3) { enabled with link := { enabled.link with attention := 0x5 } }
      ).link.attention = 0x4 := by decide +kernel
theorem test_anchorWrite_low : (after (.anchorWrite false 0x12345FFF) State.reset).link.anchorLow =
    0x12345000 := by decide +kernel
theorem test_registerWrite_mask :
    (after (.registerWrite 0x0C 0xFFFFF) State.reset).link.mask = 0xFFF := by decide +kernel
theorem test_forwardCount_at_cpp :
    (after .forwardCount { ready with track := { ready.track with accumulator := 99 } }).track.raised
      = 1 := by decide +kernel
theorem test_forwardCount_repays :
    let t := after .forwardCount { ready with track := { ready.track with
      accumulator := 99, deficit := 2 } }
    t.track.deficit = 1 ∧ t.track.accumulator = 99 := by decide +kernel
/-- R4: with CPP 100 the halt comes as the deficit goes from 50 to 51. -/
theorem test_reverseCount_crosses :
    (after .reverseCount { running with track := { running.track with deficit := 50 } }).line.halt =
      .reverse ∧
    (after .reverseCount { running with track := { running.track with deficit := 49 } }).line.halt =
      .none := by decide +kernel
theorem test_pitchEvent_steps :
    let t := after (.pitchEvent 210 PitchPart.all) { ready with track := { ready.track with raised := 1 } }
    t.track.base = 15 ∧ t.track.nextSerial = 2 ∧ t.track.raised = 0 := by decide +kernel
theorem test_pitchEvent_feeds_record :
    let t := after (.pitchEvent 210 PitchPart.all)
      { running with track := { running.track with raised := 1 }, staging := [opening] }
    (contextAt 0 t).map (·.serial) = some 1001 ∧ t.staging = [] := by decide +kernel
/-- R63, R64: the last staged record is fed while RUNNING, and the film count 0 then stops the line with
FILM (F_NOM 100, the third pitch out of window). STARVED came at the feed and stays set. -/
theorem test_starved_at_the_last_feed :
    let t := after (.pitchEvent 210 PitchPart.all) (current { running with
      track := { running.track with raised := 1 }, staging := [opening]
      wrap := { running.wrap with run := 2 } })
    t.line.stop = .film ∧ t.intake.holds.starved = false ∧ t.link.attention.getLsbD 8 = true := by
  decide +kernel
/-- R59: TAIL_GAPS is 5. -/
theorem test_tailWindowExpiry :
    let s (n : Nat) := { live 4 with intake := { (live 4).intake with window := some n } }
    (after .tailWindowExpiry (s 5)).bundles.map (·.state) = [.settling] ∧
    (after .tailWindowExpiry (s 4)).bundles.map (·.state) = [.tailing] := by decide +kernel
theorem test_purgeEnd :
    (after (.purgeEnd .b) { running with print := { running.print with
      headB := { state := .purging, purges := 1, countdown := 0, run := 0 } } }).print.headB.state =
      .standby := by decide +kernel
theorem test_pick_good :
    ((after (.pick 2 9 .good true) (live 4)).track.pocketAt 4).map (·.pend.stations) = some 0x801 := by
  decide +kernel
/-- R73, R76: the item that a FAULTED station left pending had no call: a PICK of its tag is STRAY. -/
theorem test_pick_without_call_is_stray :
    let s := holding { pocket .live with feed := 0x801 } 4 running
    ((after (.pick 2 9 .good true) s).track.pocketAt 4).map (·.pend.stations) = some 0x805 ∧
    (after (.pick 2 9 .good true) s).counters.stationTotal.get (stationIndex 2 .strays) = 1 := by
  decide +kernel
theorem test_pick_miss :
    let t := after (.pick 2 9 .miss true) (live 4)
    (t.track.pocketAt 4).map (·.fault) = some (some ⟨.miss, some 2, false⟩) ∧
    t.remakes.map (·.attempt) = [2] := by decide +kernel
theorem test_stateMessage_jam_of_main :
    let t := after (.stateMessage 0 .jam 0 true) running
    t.line.state = .paused ∧ t.line.stop = .station := by decide +kernel
/-- R129: from OUT the seal is OK from 1520 to 1780. -/
theorem test_stateMessage_seal :
    (after (.stateMessage 12 .ready 1520 true) running).wrap.sealOk = true ∧
    (after (.stateMessage 12 .ready 1519 true) running).wrap.sealOk = false := by decide +kernel
theorem test_silenceTimeout_lost :
    ((after (.silenceTimeout 2) running).stations.get 2).cause = some .lost ∧
    ((after (.silenceTimeout 2) running).stations.get 2).state = .bypassed := by decide +kernel
theorem test_stalenessTimeout :
    (after .stalenessTimeout { running with wrap := { running.wrap with sealOk := true, timer := true } }
      ).wrap.sealOk = false := by decide +kernel
/-- R127: with F_NOM 100 the runaway halt comes as F goes from 400 to 401. -/
theorem test_filmCount_runaway :
    (after (.filmCount true) { running with wrap := { running.wrap with film := 400 } }).line.halt =
      .runaway ∧
    (after (.filmCount true) { running with wrap := { running.wrap with film := 399 } }).line.halt =
      .none := by decide +kernel
theorem test_done : ((after (.done .a 9 true) (live 6)).track.pocketAt 6).map (·.pend.headAck) =
    some false := by decide +kernel
theorem test_headError_swaps :
    let t := after (.headError .a 9 true) (live 6)
    t.print.headA.state = .purging ∧ t.print.headA.countdown = 4 ∧ t.print.headB.state = .active := by
  decide +kernel
/-- R112, R146: CORRECTED sets its flag in the context of the latest attempt, and not of a predecessor whose
remake, of serial 12, has been fed. -/
theorem test_read_match :
    ((after (.read 9 7 1001 1023 false true) (live 8)).track.pocketAt 8).map (·.verify) =
      some (some .matched) ∧
    (contextAt 0 (after (.read 9 7 1001 1023 true true) (live 8))).map (·.verifyCorrected) =
      some true ∧
    (contextAt 0 (after (.read 9 7 1001 1023 true true) (remade 8))).map (·.verifyCorrected) =
      some false := by decide +kernel
theorem test_read_mismatch_before_data :
    ((after (.read 9 8 1001 1 false true) (live 8)).track.pocketAt 8).map (·.verify) =
      some (some .mismatch) := by decide +kernel
theorem test_noread_run : (after (.noread 9 true) (live 8)).print.headA.run = 1 := by decide +kernel
theorem test_stackerReadyChange :
    (after (.stackerReadyChange false) running).line.stop = .stacker := by decide +kernel
theorem test_stackerPulseEnd :
    (after .stackerPulseEnd { running with stacker := { pulse := some .stack, held := [.bundleEject] } }
      ).sent = [.pulse .bundleEject] := by decide +kernel
theorem test_guardChange : (after (.guardChange false) paused).line.halt = .guardOpen := by
  decide +kernel
theorem test_driveReadyChange :
    (after (.driveReadyChange false) running).line.halt = .drive ∧
    (after (.driveReadyChange false) paused).line.halt = .none := by decide +kernel
theorem test_drainEnd : (after .drainEnd (draining .operator)).line.state = .paused := by
  decide +kernel
theorem test_fileEnd :
    (after .fileEnd { live 4 with fetcher := { (live 4).fetcher with endSeen := true } }).line.drain =
      some .endOfFile := by decide +kernel
theorem test_jobComplete :
    (after .jobComplete (inLine { Line.reset with
      state := .draining, drain := some .endOfFile, fileExhausted := true, runEnable := true })
      ).line.state = .complete := by decide +kernel
/-- R161: EJECT for a bundle with a delivery, then TRAY_BREAK for a tray end. -/
theorem test_bundleClose :
    let t := after (.bundleClose 9) { live 4 with bundles := [{ bundle with delivered := 2 }] }
    t.stacker.pulse = some .bundleEject ∧ t.stacker.held = [.trayBreak] ∧ t.bundles = [] := by
  decide +kernel
theorem test_pageClose :
    (after .pageClose { live 4 with fetcher := { (live 4).fetcher with
      pages := [{ page with final := 2, bundlesOpen := 0, tailRole := false }] } }).fetcher.closedCount =
      1 := by decide +kernel
theorem test_fetchStart_first_page :
    let t := after .fetchStart ready
    t.fetcher.state = .fetching ∧ t.sent.getLast? = some (.read 0x100000 64) := by decide +kernel
theorem test_linkPoll :
    (after .linkPoll { live 4 with fetcher := { (live 4).fetcher with state := .polling } }).sent =
      [.read 0x100000 8] := by decide +kernel
def linkAwaited : State :=
  { live 4 with link := { (live 4).link with outstanding := [.linkWord] } }
theorem test_linkReadDone_zero :
    (after (.linkReadDone ⟨.awaited, List.replicate 8 0⟩) linkAwaited).fetcher.state = .polling := by
  decide +kernel
/-- R29: 0x1FFFC0 is the last page address of the window; 0x200000 lies beyond it. -/
theorem test_linkReadDone_edge :
    (after (.linkReadDone ⟨.awaited, leBytes 8 0x1FFFC0⟩) linkAwaited).fetcher.state = .fetching ∧
    (after (.linkReadDone ⟨.awaited, leBytes 8 0x200000⟩) linkAwaited).fetcher.state = .linkRefused := by
  decide +kernel
/-- A first page being fetched. -/
def fetching (header : Option PageHeader) (kind : ReadKind) : State :=
  { ready with
    fetcher := { ready.fetcher with
      state := .fetching, fetch := some { address := 0x100000, header := header } }
    link := { ready.link with outstanding := [kind] } }
def headerBytes (sequence count ends : Nat) : List Byte :=
  bytesWith 64 [(0, leBytes 8 0x101000), (8, leBytes 4 sequence), (12, leBytes 1 count),
    (13, leBytes 1 ends)]
theorem test_headerReadDone :
    (after (.headerReadDone ⟨.awaited, headerBytes 1 2 0⟩) (fetching none .pageHeader)).link.outstanding =
      [.pageRecords] := by decide +kernel
theorem test_headerReadDone_sequence :
    (after (.headerReadDone ⟨.awaited, headerBytes 2 2 0⟩) (fetching none .pageHeader)
      ).fetcher.held.map (·.cause) = some .sequence := by decide +kernel
def recordBytes (serial key size : Nat) : List Byte :=
  bytesWith 224 [(0, leBytes 4 serial), (4, leBytes 4 key), (8, leBytes 2 size),
    (10, leBytes 2 0x805), (13, [1]), (16, [2, 65, 66])]
def header : PageHeader :=
  { link := 0x101000, sequence := 1, count := 2, ends := false, pageState := 0 }
def recordsAwaited : State := fetching (some header) .pageRecords
/-- The page is read in orphan mode. -/
def orphaned : State :=
  { recordsAwaited with fetcher := { recordsAwaited.fetcher with orphan := true } }
/-- R35: in orphan mode the continuing record is withdrawn, and the opening record staged. -/
theorem test_recordsReadDone :
    (after (.recordsReadDone ⟨.awaited, recordBytes 1001 40 2 ++ recordBytes 1002 40 0⟩) recordsAwaited
      ).staging.map (·.serial) = [1001, 1002] ∧
    (let t := after
        (.recordsReadDone ⟨.awaited, recordBytes 1001 40 0 ++ recordBytes 1002 41 2⟩) orphaned
     t.staging.map (·.serial) = [1002] ∧ t.fetcher.pages.map (·.final) = [1] ∧
      t.counters.total.get 9 = 1) := by decide +kernel
theorem test_recordsReadDone_serial_gap :
    (after (.recordsReadDone ⟨.awaited, recordBytes 1001 40 2 ++ recordBytes 1003 40 0⟩) recordsAwaited
      ).fetcher.held.map (·.cause) = some .serial := by decide +kernel
theorem test_readErrorCompletion :
    let t := after (.readErrorCompletion ⟨.awaited, .linkWord⟩) linkAwaited
    t.fetcher.state = .linkDown ∧ t.line.halt = .link := by decide +kernel
/-- R26, R192: a read that timed out, or was dropped by a reset, is not waited for. -/
theorem test_dropped_read_changes_nothing :
    after (.requestSectionReadDone ⟨.dropped, List.replicate 128 1⟩) scanned = scanned := by
  decide +kernel
theorem test_readTimeout : (after (.readTimeout .linkWord) linkAwaited).fetcher.state = .linkDown := by
  decide +kernel
theorem test_pcieLinkInactive_idle_link :
    (after .pcieLinkInactive (live 4)).fetcher.state = .waiting ∧
    (after .pcieLinkInactive linkAwaited).fetcher.state = .linkDown := by decide +kernel
theorem test_scanTimer : (after .scanTimer enabled).sent = [.read 0x100 128] := by decide +kernel
theorem test_requestSectionReadDone_lowest :
    (after (.requestSectionReadDone ⟨.awaited, bytesWith 128 [(32, [1, 0, 2, 0]), (64, [1, 0, 3, 0])]⟩)
      scanned).request.map (·.code) = some 2 := by decide +kernel
theorem test_unknownRequest : (after .unknownRequest (asking (request 16) enabled)).sent.take 3 =
    [.write 0x138 [0, 0, 0, 0], .write 0x124 [0xCD, 0xAB, 0, 0], .write 0x121 [4]] := by decide +kernel
theorem test_loadJob : (after .loadJob (asking (request 1) enabled)).sent = [.read 0 256] := by
  decide +kernel
/-- R169: BAD_STATE (2) with the code of RUNNING (2). -/
theorem test_loadJob_running_bad_state :
    let t := after .loadJob (asking (request 1) running)
    Message.write 0x138 [2, 0, 0, 0] ∈ t.sent ∧ Message.write 0x121 [2] ∈ t.sent := by decide +kernel
def startable : State := asking (request 2)
  { ready with wrap := { ready.wrap with sealOk := true, timer := true } }
theorem test_start : (after .start startable).line.state = .running ∧
    (after .start startable).print.headA.state = .active := by decide +kernel
/-- R172: guard 1 and seal 8. -/
theorem test_start_weights : startWeights { ready with inputs := { ready.inputs with
    guardClosed := false } } = 9 := by decide +kernel
theorem test_pause : (after .pause (asking (request 3) running)).line.stop = .request := by
  decide +kernel
theorem test_drain : (after .drain (asking (request 4) (live 4))).line.drain = some .operator := by
  decide +kernel
theorem test_clearHalt : (after .clearHalt (asking (request 5) halted)).line.state = .paused ∧
    (after .clearHalt (asking (request 5) halted)).line.halt = .guardOpen := by decide +kernel
theorem test_abortJob :
    let t := after .abortJob (asking (request 6) (holding (pocket .live) 4 paused))
    t.line.state = .idle ∧ t.fetcher.pages = [] ∧ t.bundles = [] ∧
    t.sent.take 6 = [.write 0x100121 [1, 0, 255, 0, 0, 0], .write 0x100128 [9, 0, 0, 0],
      .write 0x100120 [4], .write 0x100014 [1, 0],
      .write 0x100130 [0, 0, 0, 0, 0, 0, 0, 0], .write 0x10013C [0, 0, 0, 0]] := by decide +kernel
/-- R8, R43: the final pocket serial is that of the last attempt, also when its pocket has left the
track. -/
theorem test_abortJob_pocket_gone :
    Message.write 0x100128 [9, 0, 0, 0] ∈ (after .abortJob (asking (request 6)
      { holding (pocket .live) 4 paused with
        track := running.track, remakes := [remake] })).sent := by decide +kernel
theorem test_retryPage_waiting : (after .retryPage (asking (request 7) (live 4))).request = none := by
  decide +kernel
/-- A page held at a header check, behind an accepted page. -/
def pageHeld : State :=
  { live 4 with
    fetcher := { (live 4).fetcher with
      state := .pageHeld, heldShown := 2
      held := some { address := 0x101000, sequence := 2, count := 3, ends := false, cause := .key } } }
theorem test_retryPage_held :
    (after .retryPage (asking (request 7) pageHeld)).link.outstanding = [.linkWord] := by decide +kernel
theorem test_skipPage :
    let t := after .skipPage (asking (request 8 2) pageHeld)
    t.fetcher.expected = 3 ∧ t.fetcher.orphan = true ∧ t.counters.total.get 9 = 3 := by decide +kernel
/-- The tail bundle, of four, is FEEDING with two fed of two read. -/
def broken : State :=
  let s := { pageHeld with
    bundles := [{ bundle with size := 4, state := .feeding }]
    intake := { pageHeld.intake with window := some 2 } }
  { s with fetcher := { s.fetcher with tail := some { key := 40, size := 4, read := 2, ordinal := 1 } } }
/-- R42, R158: two records are withdrawn, and the bundle becomes TAILING. -/
theorem test_skipPage_breaks_the_tail :
    (after .skipPage (asking (request 8 2) broken)).bundles =
      [{ bundle with size := 4, withdrawn := 2, broken := true }] := by decide +kernel
/-- R83: a station bypassed answers 2. -/
theorem test_setStation :
    let t := after .setStation (asking (request 9 2 1) ready)
    (t.stations.get 2).state = .bypassed ∧ Message.write 0x138 [2, 0, 0, 0] ∈ t.sent := by decide +kernel
/-- Station 2 LOST, and heard READY again. -/
def lost : State :=
  { ready with stations := ready.stations.set 2 { ready.stations.get 2 with
      state := .faulted, cause := some .lost, lastState := some .ready } }
/-- R84: the cause LOST is 4. -/
theorem test_clearStation :
    let t := after .clearStation (asking (request 10 2) lost)
    (t.stations.get 2).state = .online ∧ Message.write 0x138 [4, 0, 0, 0] ∈ t.sent := by decide +kernel
/-- R84, R70: in IDLE the station is OFFLINE, which is 0. -/
theorem test_clearStation_idle :
    let t := after .clearStation (asking (request 10 2) enabled)
    Message.write 0x121 [2] ∈ t.sent ∧ Message.write 0x138 [0, 0, 0, 0] ∈ t.sent := by decide +kernel
/-- R85: 3800 + 420 + 120 = 4340. -/
theorem test_setThickness :
    Message.write 0x138 (leBytes 4 4340) ∈
      (after .setThickness (asking (request 11 2 420) ready)).sent := by decide +kernel
theorem test_calibrateGauge :
    (after .calibrateGauge (asking (request 12) ready)).gauge.state = .calibrating := by decide +kernel
theorem test_selectHead :
    let t := after .selectHead (asking (request 13 1) running)
    t.print.headB.state = .active ∧ t.print.headA.state = .standby := by decide +kernel
theorem test_restoreHead :
    (after .restoreHead (asking (request 14 1) { ready with print := { ready.print with
      headB := { state := .failed, purges := 2, countdown := 0, run := 3 } } })).print.headB =
      { state := .active, purges := 0, countdown := 0, run := 0 } := by decide +kernel
/-- R119, R104: in IDLE the head named is OFF, which is 0. -/
theorem test_restoreHead_idle :
    let t := after .restoreHead (asking (request 14 1) enabled)
    Message.write 0x121 [2] ∈ t.sent ∧ Message.write 0x138 [0, 0, 0, 0] ∈ t.sent := by decide +kernel
theorem test_snapshot :
    let t := after .snapshot (asking (request 15) ready)
    t.counters.snapshots = 1 ∧ t.counters.interval.get 62 = 1 := by decide +kernel
theorem test_statusRefresh : (after .statusRefresh running).sent.length = 2 := by decide +kernel
theorem test_interruptAddressConfig :
    (after (.interruptAddressConfig 0xFEE01000) running).link.interruptAddress = some 0xFEE01000 := by
  decide +kernel
/-- The bytes of a profile that LOAD_JOB takes. -/
def profileBytes : List Byte :=
  bytesWith 256 ([(0x00, leBytes 8 0x100000), (0x08, leBytes 8 0x200000), (0x10, leBytes 8 0x100000),
    (0x18, leBytes 2 7), (0x1A, leBytes 2 16), (0x1C, leBytes 2 100), (0x1E, [1, 5, 5, 7, 8, 10, 12]),
    (0x28, [3, 3, 4]), (0x2C, [1, 40]), (0x2E, leBytes 2 210), (0x30, leBytes 2 150), (0x32, [30, 20]),
    (0x34, leBytes 2 100), (0x36, leBytes 2 10), (0x38, [3]), (0x3A, leBytes 2 1500),
    (0x3C, leBytes 2 1800), (0x3E, [20])] ++
    [(0x40, [1, 1] ++ leBytes 2 3800 ++ [3, 3, 1]), (0x50, [1, 2] ++ leBytes 2 180 ++ [3, 3, 1]),
     (0x98, [1, 3] ++ leBytes 2 120 ++ [3, 3, 1])])
theorem test_parseProfile : parseProfile profileBytes = job := by decide +kernel
def profileAwaited : State :=
  asking (request 1 0 0 .readingProfile)
    { enabled with link := { enabled.link with outstanding := [.profile] } }
theorem test_profileReadDone :
    let t := after (.profileReadDone ⟨.awaited, profileBytes⟩) profileAwaited
    t.line.state = .ready ∧ t.profile = some job := by decide +kernel
/-- R170: index 4 is the track length. -/
theorem test_profileReadDone_index :
    (parseProfile (profileBytes.take 0x1A ++ [15, 0] ++ profileBytes.drop 0x1C)).firstFailure =
      some 4 := by decide +kernel
theorem test_pcieLinkActive_sends_waiting :
    (after .pcieLinkActive { enabled with link := { enabled.link with
      active := false, waiting := [.write 0x200 [1], .attention .lineState] } }).sent =
      [.write 0x200 [1], .interrupt 0xFEE00000 .lineState] := by decide +kernel
theorem test_step_empty_queue : step running = .next running := rfl

/-! ## Witnesses

For each statement with hypotheses, operands and a state that meet them, clause by clause. -/

/-! ### Registers, interrupts and invariants -/

theorem witness_RegistersAndAttention_writes :
    (enabled.line.state = .idle ∧ enabled.request = none) ∧ ready.line.state ≠ .idle ∧
    (asking (request 2) enabled).request ≠ none ∧
    (State.reset.line.state = .idle ∧ State.reset.link.enable = false ∧
      controlBlock State.reset % 4096 = 0) ∧
    enabled.link.enable = true ∧ 0x18 ≤ (0x18 : Word).toNat := by decide +kernel

theorem witness_RegistersAndAttention_bits :
    (enabled.link.attention.getLsbD Attention.halted.bit = false ∧
      enabled.link.mask.getLsbD Attention.halted.bit = true ∧ enabled.link.active = true ∧
      enabled.link.interruptAddress = some 0xFEE00000) ∧
    (setAttentionBit .halted enabled).link.attention.getLsbD Attention.halted.bit = true ∧
    State.reset.link.mask.getLsbD Attention.halted.bit = false ∧
    State.reset.link.interruptAddress = none ∧
    ({ enabled with link := { enabled.link with active := false } } : State).link.active = false := by
  decide +kernel

/-- A LIVE pocket at position 4, with a command waiting. -/
def queued : State := { live 4 with pending := [.pick 2 9 .miss true] }

theorem queued_profile {p : Profile} (h : queued.profile = some p) : p = job :=
  (Option.some.inj h).symm

theorem witness_queued_steps : ∃ t, step queued = .next t ∧ t.remakes.length = 1 :=
  ⟨_, rfl, by decide +kernel⟩

theorem witness_EveryStepKeepsTheLineConsistent :
    LineConsistent queued ∧ DisabledIsIdle queued ∧ AnchorAligned queued :=
  ⟨by unfold LineConsistent; decide +kernel, fun h => absurd h (by decide +kernel),
    by unfold AnchorAligned; decide +kernel⟩

theorem witness_EveryStepKeepsHeadsAndHolds : OneHeadActive queued ∧ HoldsCurrent queued :=
  ⟨by unfold OneHeadActive; decide +kernel, by unfold HoldsCurrent; decide +kernel⟩

theorem witness_EveryStepKeepsTheJobInRange :
    ProfileLoaded queued ∧ TrackFull queued ∧ CountsInRange queued :=
  ⟨⟨by decide +kernel, by decide +kernel⟩, ⟨by decide +kernel, by decide +kernel⟩,
    fun _ h => by rw [queued_profile h]; decide +kernel, by decide +kernel, by decide +kernel,
    by decide +kernel, by decide +kernel, by decide +kernel, by decide +kernel, by decide +kernel,
    fun _ h => (nomatch h : False).elim, by decide +kernel⟩

theorem witness_EveryStepKeepsThePagesInTheWindow : PagesInWindow queued := by
  intro p h
  rw [queued_profile h]
  exact ⟨by decide +kernel, fun _ h => (nomatch h : False).elim, fun _ h => (nomatch h : False).elim,
    fun _ _ h => (nomatch h : False).elim,
    fun a h => by
      rcases h with h | h
      · injection h with h; subst h; decide +kernel
      · exact (nomatch h : False).elim⟩

theorem witness_EveryStepKeepsThePagesInTheWindow_room : PagesHaveRoom queued := by
  unfold PagesHaveRoom; decide +kernel

/-- The bundle has one subscriber delivered and one on the track, and its ordinal was given. -/
def accounted : State :=
  { queued with
    bundles := [{ bundle with delivered := 1 }]
    fetcher := { queued.fetcher with nextOrdinal := 2 } }

theorem witness_EveryStepKeepsTheBundleAccounts : BundleAccounts accounted := by
  unfold BundleAccounts; decide +kernel

theorem witness_EveryStepKeepsTheBundleAccounts_held : HeldBehindAPulse accounted := fun _ => rfl

theorem witness_accounted_steps : ∃ t, step accounted = .next t ∧ t.remakes.length = 1 :=
  ⟨_, rfl, by decide +kernel⟩

/-- R188: a pause writes its stop cause, the line state, the job totals and the hold causes. -/
theorem witness_StatusFieldsFollowTheState :
    (let s := asking (request 3) running
     let t := after .pause s
     LinkOpen s ∧ LinkOpen t ∧ t.line.state ≠ s.line.state ∧ t.line.stop ≠ s.line.stop ∧
      t.intake.holds.code ≠ s.intake.holds.code ∧
      (t.sent.filterMap fun m => match m with
        | .write a d => if d.length = 1 then some (a, d) else none
        | _ => none).take 3 = [(0x201, [1]), (0x200, [4]), (0x204, [1])]) ∧
    (State.reset.link.waiting = [] ∧ State.reset.link.enable = false) ∧
    (let s := after (.readTimeout .linkWord) linkAwaited
     s.fetcher.state = .linkDown ∧ s.link.waiting = [] ∧ s.link.outstanding = []) := by
  decide +kernel

theorem witness_StatusFieldsFollowTheState_loadJob :
    profileAwaited.request = some (request 1 0 0 .readingProfile) ∧
    .profile ∈ profileAwaited.link.outstanding ∧ LinkOpen profileAwaited ∧
    (parseProfile profileBytes).firstFailure = none := by decide +kernel

/-! ### Counts, the track and the intake -/

/-- A running line with these counts, and one pitch event raised. -/
def counted (accumulator deficit : Nat) (s : State) : State :=
  { s with track := { s.track with accumulator := accumulator, deficit := deficit, raised := 1 } }

theorem witness_ForwardCountStepsTheAccumulator :
    State.reset.job = none ∧ (counted 98 1 running).job = some job ∧
    0 < (counted 98 1 running).track.deficit ∧
    ((counted 98 0 running).track.deficit = 0 ∧
      (counted 98 0 running).track.accumulator + 1 < job.cpp) ∧
    job.cpp ≤ (counted 99 0 running).track.accumulator + 1 := by decide +kernel

theorem witness_ReverseCountAddsToTheDeficit :
    (counted 98 1 running).job = some job ∧ 0 < (counted 98 1 running).track.deficit := by
  decide +kernel

theorem witness_ReverseCrossingHalts :
    State.reset.job = none ∧ (counted 0 50 (live 4)).job = some job ∧
    (2 * (counted 0 50 (live 4)).track.deficit ≤ job.cpp ∧
      job.cpp < 2 * ((counted 0 50 (live 4)).track.deficit + 1) ∧
      (counted 0 50 (live 4)).track.deficit < 65535 ∧ TakesHalt (counted 0 50 (live 4)) ∧
      (counted 0 50 (live 4)).track.base < job.trackLen ∧ job.trackLen ≤ 128) ∧
    job.cpp < 2 * (counted 0 51 running).track.deficit ∧
    2 * ((counted 0 49 running).track.deficit + 1) ≤ job.cpp ∧
    65535 ≤ (counted 0 65535 running).track.deficit ∧ ¬ TakesHalt (counted 0 50 halted) := by
  decide +kernel

theorem witness_clearHalt_answers : ∃ t, exec .clearHalt (asking (request 5) halted) = .next t :=
  ⟨_, rfl⟩

theorem witness_PitchEventStepsTheTrack :
    State.reset.job = none ∧ running.track.raised = 0 ∧ (counted 0 0 running).job = some job ∧
    0 < (counted 0 0 running).track.raised ∧ (counted 0 0 running).track.base < job.trackLen ∧
    job.trackLen ≤ 128 ∧ (Instr.pitchEvent 0 PitchPart.all.reverse).wellFormed = true := by
  decide +kernel

theorem witness_CoastingPitchFillsAGap :
    (counted 0 0 paused).job = some job ∧ 0 < (counted 0 0 paused).track.raised ∧
    (counted 0 0 paused).track.base < job.trackLen ∧ job.trackLen ≤ 128 ∧
    paused.line.state ≠ .running ∧ paused.line.state ≠ .draining := by decide +kernel

/-- The pocket of serial 9 is FAULTED, and its remake waits. -/
def remaking : State := { holding (pocket .faulted) 4 running with remakes := [remake] }

theorem witness_IntakeFeedsTheOldestRemake :
    remaking.job = some job ∧ remaking.track.base < job.trackLen ∧ job.trackLen ≤ 128 ∧
    remaking.line.state = .running ∧ remaking.line.drain ≠ some .operator ∧
    headActive remaking = true ∧ remaking.remakes = remake :: [] ∧
    contextAt remake.context remaking = some context := by decide +kernel

/-- R56: the remake of an in-sort subscriber is an in-sort pocket of its bundle, and one out of sort is of
none. -/
theorem witness_IntakeFeedsTheOldestRemake_sorts :
    (fillIntake job remaking).2 = some 1 ∧
    (fillIntake job { remaking with remakes := [{ remake with sort := .oos }] }).2 = none := by
  decide +kernel

/-- A record waits that opens a bundle; one waits that goes on with a bundle in the table. -/
def staged : State := current { running with staging := [opening] }
def stagedOn : State := { live 4 with staging := [{ opening with serial := 1002, size := 0 }] }

theorem witness_IntakeFeedsTheFrontRecord :
    (staged.job = some job ∧ staged.track.base < job.trackLen ∧ job.trackLen ≤ 128 ∧
      holdsNow staged = .empty ∧ staged.remakes = [] ∧ staged.staging = opening :: [] ∧
      freeContextEntry staged = some 0 ∧ 0 < opening.size ∧
      ∀ b ∈ staged.bundles, b.ordinal ≠ opening.ordinal) ∧
    (stagedOn.job = some job ∧ holdsNow stagedOn = .empty ∧ stagedOn.remakes = [] ∧
      stagedOn.staging = { opening with serial := 1002, size := 0 } :: [] ∧
      freeContextEntry stagedOn = some 1) ∧
    (staged.line.state = .running ∧ staged.intake.holds.starved = false ∧ LinkOpen staged) := by
  decide +kernel

/-- A record of another bundle waits behind a TAILING one, and one that opens a bundle behind eight. -/
def behindATail : State := { live 4 with staging := [{ opening with ordinal := 2 }] }
def behindEight : State :=
  { running with staging := [opening],
                 bundles := List.replicate 8 { bundle with state := .settling } }

/-- R47 to R49: the cases in which a GAP is filled; STARVED_GAPS rises in the fourth only (R65). -/
theorem witness_IntakeFeedsTheFrontRecord_gaps :
    (paused.job = some job ∧ (holdsNow paused).line = true) ∧
    (ready.job = some job ∧ (holdsNow ready).noHead = true) ∧
    (draining .operator).line.drain = some .operator ∧
    (running.remakes = [] ∧ running.staging = [] ∧ running.line.state = .running ∧
      headActive running = true) ∧
    (holdsNow { draining .endOfFile with staging := [opening] }).drain = true ∧
    (behindEight.job = some job ∧ behindEight.remakes = [] ∧
      (holdsNow behindEight).tableFull = true) ∧
    (behindATail.remakes = [] ∧ (holdsNow behindATail).bundleTail = true) := by decide +kernel

/-- The bundle is TAILING and its counter is this. -/
def tailing (n : Nat) : State := { live 4 with intake := { (live 4).intake with window := some n } }

theorem witness_TailWindowExpiry :
    ((tailing 5).intake.window = some 5 ∧ windowBundle (tailing 5) = some bundle) ∧
    running.intake.window = none ∧ windowBundle running = none ∧
    ((tailing 5).job = some job ∧ tailingBundle (tailing 5) = some bundle ∧ job.tailGaps ≤ 5 ∧
      ∀ r ∈ (tailing 5).remakes, r.ordinal = bundle.ordinal → r.sort ≠ .inSort) ∧
    (4 < job.tailGaps ∧ tailingBundle (tailing 4) = some bundle) ∧
    remake.ordinal = bundle.ordinal ∧ remake.sort = .inSort := by decide +kernel

/-- Head B purges. -/
def purging (countdown : Nat) : State :=
  { running with print := { running.print with
      headB := { state := .purging, purges := 1, countdown := countdown, run := 0 } } }

theorem witness_PurgeEndReturnsTheHead :
    (((purging 0).headEntry .b).state = .purging ∧ ((purging 0).headEntry .b).countdown = 0) ∧
    (running.headEntry .b).state ≠ .purging ∧ ((purging 4).headEntry .b).countdown ≠ 0 ∧
    LinkOpen (purging 0) := by decide +kernel

/-- Both heads are at the last spit of their purge, and a pitch event waits. -/
def bothPurging : State :=
  let last : HeadEntry := { state := .purging, purges := 1, countdown := 1, run := 0 }
  { running with track := { running.track with raised := 1 },
                 print := { running.print with headA := last, headB := last } }

/-- R115: the head whose turn comes first becomes ACTIVE, the other STANDBY. -/
theorem witness_PurgeEndReturnsTheHead_both :
    bothPurging.job = some job ∧ 0 < bothPurging.track.raised ∧ LinkOpen bothPurging ∧
    headActive bothPurging = false ∧
    (after (.pitchEvent 0 PitchPart.all) bothPurging).print.headA.state = .active ∧
    (after (.pitchEvent 0 PitchPart.all) bothPurging).print.headB.state = .standby ∧
    (after (.pitchEvent 0 PitchPart.all.reverse) bothPurging).print.headB.state = .active := by
  decide +kernel

/-! ### The station loop, film and seal -/

theorem witness_GoodAndStrayPicks :
    12 ≤ (12 : Byte).toNat ∧ State.reset.job = none ∧
    ((live 4).job = some job ∧ (2 : Byte).toNat = (2 : Fin 12).val ∧
      NoTag 10 (fun k => StationSet.holds k.pend.stations 2 && StationSet.holds k.feed 2) (live 4) ∧
      NoTag 9 (fun k => StationSet.holds k.pend.stations 2 && StationSet.holds k.feed 2)
        (holding { pocket .live with feed := 0x801 } 4 running)) ∧
    (TagAt 9 4 (pocket .live) (live 4) ∧ StationSet.holds (pocket .live).pend.stations 2 = true ∧
      StationSet.holds (pocket .live).feed 2 = true) := by
  decide +kernel

/-- Station 2 one short of its limit; station 11 with two DOUBLEs. -/
def nearLimit : State :=
  let s := live 4
  let near := s.stations.set 2 { s.stations.get 2 with misses := 2 }
  { s with stations := near.set 11 { s.stations.get 11 with doubles := 2 } }

theorem witness_BadPickFaultsThePocket :
    (nearLimit.job = some job ∧ TagAt 9 4 (pocket .live) nearLimit ∧
      StationSet.holds (pocket .live).pend.stations 2 = true ∧
      StationSet.holds (pocket .live).pend.stations 11 = true ∧
      StationSet.holds (pocket .live).feed 2 = true ∧
      StationSet.holds (pocket .live).feed 11 = true) ∧
    (TagAt 9 4 (pocket .faulted) (holding (pocket .faulted) 4 running) ∧
      (pocket .faulted).state ≠ .live) ∧
    min 15 (((live 4).stations.get 2).misses + 1) < ((live 4).stations.get 2).missLimit ∧
    ((nearLimit.stations.get 2).state = .online ∧
      (nearLimit.stations.get 2).missLimit ≤ min 15 ((nearLimit.stations.get 2).misses + 1) ∧
      (nearLimit.stations.get 2).bypassAction = true) ∧
    (nearLimit.stations.get 11).doubleLimit ≤ min 15 ((nearLimit.stations.get 11).doubles + 1) ∧
    nearLimit.line.state = .running := by decide +kernel

theorem witness_StationStateIsRecorded :
    12 < (13 : Byte).toNat ∧ (11 : Byte).toNat = (11 : Fin 12).val ∧
    (running.stations.get 11).state = .online ∧ (running.stations.get 3).state ≠ .online ∧
    (running.stations.get 2).bypassAction = true ∧ LinkOpen running ∧
    running.line.state = .running ∧ paused.line.state ≠ .running ∧ paused.line.state ≠ .draining := by
  decide +kernel

theorem witness_TheSealFollowsTheTemperature :
    State.reset.job = none ∧ running.job = some job ∧ running.wrap.sealOk = false ∧
    startable.wrap.sealOk = true ∧ startable.job = some job ∧ running.wrap.timer = false ∧
    startable.wrap.timer = true := by decide +kernel

theorem witness_SilenceLosesTheStation :
    (running.stations.get 3).timer = false ∧
    ((running.stations.get 2).timer = true ∧ (running.stations.get 2).state = .online ∧
      (running.stations.get 2).fitted = true ∧ running.job ≠ none) ∧
    (running.stations.get 2).bypassAction = true ∧ LinkOpen running ∧
    running.line.state = .running ∧ (paused.line.state ≠ .running ∧ paused.line.state ≠ .draining) ∧
    ((running.stations.get 11).state = .online ∧ (running.stations.get 11).fitted = true ∧
      (running.stations.get 11).timer = true) ∧
    ((lost.stations.get 2).timer = true ∧ (lost.stations.get 2).state ≠ .online) := by decide +kernel

/-- A film count. -/
def filmed (film : Int) (s : State) : State := { s with wrap := { s.wrap with film := film } }

theorem witness_FilmCountAndRunaway :
    State.reset.job = none ∧ (filmed 400 running).job = some job ∧
    (filmed 400 running).line.state = .running ∧ (filmed 400 running).wrap.runaway = false ∧
    TakesHalt (filmed 400 running) ∧
    4 * job.fNom < (after (.filmCount true) (filmed 400 running)).wrap.film.natAbs ∧
    (after (.filmCount true) (filmed 399 running)).wrap.film.natAbs ≤ 4 * job.fNom ∧
    (after (.filmCount false) (filmed (-65535) paused)).wrap.film = -65535 ∧
    (after (.filmCount true) (filmed 65535 paused)).wrap.film = 65535 := by decide +kernel

/-! ### Heads, reader and gauge -/

theorem witness_DoneAndStrayReplies :
    State.reset.job = none ∧ (State.reset.headEntry .a).state = .off ∧ (live 6).job ≠ none ∧
    ((live 6).headEntry .a).state ≠ .off ∧ TagAt 9 6 (pocket .live) (live 6) ∧
    (pocket .live).pend.headAck = true ∧ (pocket .live).printedBy = some .a ∧
    NoTag 9 (fun k => k.pend.headAck && decide (k.printedBy = some .b)) (live 6) ∧
    NoTag 10 (fun k => k.pend.readBack) (live 6) := by decide +kernel

/-- Head A has purged twice, and head B has failed. -/
def lastHead : State :=
  { live 6 with print := { (live 6).print with
      headA := { state := .active, purges := 2, countdown := 0, run := 2 }
      headB := { state := .failed, purges := 2, countdown := 0, run := 0 } } }

theorem witness_HeadErrorFaultsAndSwaps :
    ((live 6).job = some job ∧ ((live 6).headEntry .a).state = .active ∧
      TagAt 9 6 (pocket .live) (live 6) ∧ (pocket .live).pend.headAck = true ∧
      (pocket .live).printedBy = some .a ∧ ((live 6).headEntry .a).purges < 2) ∧
    (lastHead.job = some job ∧ (lastHead.headEntry .a).state = .active ∧
      TagAt 9 6 (pocket .live) lastHead ∧ ¬ (lastHead.headEntry .a).purges < 2 ∧
      (lastHead.headEntry (otherHead .a)).state = .failed ∧ lastHead.line.state = .running) ∧
    (TagAt 9 6 { pocket .faulted with printedBy := some .b }
        (holding { pocket .faulted with printedBy := some .b } 6 running) ∧
      ((holding { pocket .faulted with printedBy := some .b } 6 running).headEntry .b).state ≠ .off ∧
      ((holding { pocket .faulted with printedBy := some .b } 6 running).headEntry .b).state ≠
        .active) := by decide +kernel

/-- One MISMATCH stands in the verify window. -/
def slipping : State :=
  { live 8 with print := { (live 8).print with window := [.mismatch, .matched] } }

theorem witness_ReadIsJudged :
    ((live 8).job = some job ∧ TagAt 9 8 (pocket .live) (live 8) ∧
      (pocket .live).pend.readBack = true ∧
      (live 8).print.readBacks.find? (fun q => decide (q.pocket = (pocket .live).serial)) =
        some readBack ∧
      [VerifyResult.matched].count VerifyResult.mismatch < 2) ∧
    (slipping.job = some job ∧ TagAt 9 8 (pocket .live) slipping ∧ TakesHalt slipping ∧
      slipping.print.readBacks.find? (fun q => decide (q.pocket = (pocket .live).serial)) =
        some readBack ∧
      2 ≤ (slipping.print.window ++ [VerifyResult.mismatch]).count VerifyResult.mismatch ∧
      ∀ q ∈ slipping.request, q.code ≠ 6) ∧
    (pocketContext (pocket .live) (live 8) = some (0, context) ∧
      context.lastPocket = (pocket .live).serial) := by decide +kernel

theorem witness_ReadIsJudged_predecessor :
    TagAt 9 8 (pocket .faulted) (remade 8) ∧
    (remade 8).print.readBacks.find? (fun q => decide (q.pocket = (pocket .faulted).serial)) =
      some readBack ∧
    (pocketContext (pocket .faulted) (remade 8)).map (·.2.lastPocket) = some 12 := by decide +kernel

/-- Head A is one NOREAD short of its limit. -/
def nearSwap : State :=
  { live 8 with print := { (live 8).print with
      headA := { state := .active, purges := 1, countdown := 0, run := 2 } } }

/-- Two MISMATCH results stand in the verify window of a line that runs. -/
def noreadSlips : State :=
  { live 8 with print := { (live 8).print with window := [.mismatch, .mismatch] } }

/-- The last usable head is one NOREAD short of its limit, with this verify window. -/
def lastSwap (window : List VerifyResult) : State :=
  { live 8 with print := { (live 8).print with
      window := window
      headA := { state := .active, purges := 2, countdown := 0, run := 2 }
      headB := { state := .failed, purges := 2, countdown := 0, run := 0 } } }

/-- R117, R176: the NOREAD that loses the last head drains the line, or halts it with its stop cause kept. -/
theorem test_noread_last_head :
    ((after (.noread 9 true) (lastSwap [])).line.state = .draining ∧
      (after (.noread 9 true) (lastSwap [])).line.stop = .noPrint) ∧
    ((after (.noread 9 true) (lastSwap [.mismatch, .mismatch])).line.halt = .slip ∧
      (after (.noread 9 true) (lastSwap [.mismatch, .mismatch])).line.stop = .noPrint) := by
  decide +kernel

/-- R140: a NOREAD on a FAULTED pocket has been charged, with the swap it starts, when its later fault is
counted: the totals written as the loss of the last head drains the line do not hold the fault yet. -/
theorem test_noread_later_fault :
    let s := { lastSwap [] with track := (holding (pocket .faulted) 8 running).track, sent := [] }
    let t := after (.noread 9 true) s
    let n := 4 * LineCounter.laterFaults.index.val
    t.line.stop = .noPrint ∧ t.counters.total.get LineCounter.laterFaults.index = 1 ∧
    (t.sent.filterMap fun m => match m with
      | .write a d => if a = controlBlock s + 0x300 then some ((d.drop n).take 4) else none
      | _ => none) = [[0, 0, 0, 0]] := by decide +kernel

theorem witness_NoreadIsCharged :
    (nearSwap.job = some job ∧ TagAt 9 8 (pocket .live) nearSwap ∧
      (pocket .live).pend.readBack = true ∧
      nearSwap.print.readBacks.find? (fun q => decide (q.pocket = (pocket .live).serial)) =
        some readBack ∧
      nearSwap.print.window.count VerifyResult.mismatch < 2 ∧
      job.headFailLimit ≤ min 15 ((nearSwap.headEntry .a).run + 1) ∧
      (nearSwap.headEntry .a).state = .active ∧ (nearSwap.headEntry .a).purges < 2) ∧
    (min 15 (((live 8).headEntry .a).run + 1) < job.headFailLimit ∧
      TagAt 9 8 (pocket .live) (live 8)) ∧
    (noreadSlips.job = some job ∧ TagAt 9 8 (pocket .live) noreadSlips ∧ TakesHalt noreadSlips ∧
      noreadSlips.print.readBacks.find? (fun q => decide (q.pocket = (pocket .live).serial)) =
        some readBack ∧
      2 ≤ (noreadSlips.print.window ++ [VerifyResult.noread]).count VerifyResult.mismatch ∧
      (∀ q ∈ noreadSlips.request, q.code ≠ 6) ∧
      min 15 ((noreadSlips.headEntry readBack.head).run + 1) < job.headFailLimit) := by
  decide +kernel

theorem witness_NoreadIsCharged_later :
    let s := holding (pocket .faulted) 8 running
    s.job = some job ∧ TagAt 9 8 (pocket .faulted) s ∧ (pocket .faulted).pend.readBack = true ∧
    s.print.readBacks.find? (fun q => decide (q.pocket = (pocket .faulted).serial)) =
      some readBack := by decide +kernel

theorem witness_NoreadIsCharged_last_head :
    let s := lastSwap [.mismatch, .mismatch]
    s.job = some job ∧ TagAt 9 8 (pocket .live) s ∧
    s.print.readBacks.find? (fun q => decide (q.pocket = (pocket .live).serial)) = some readBack ∧
    job.headFailLimit ≤ min 15 ((s.headEntry .a).run + 1) ∧ (s.headEntry .a).state = .active ∧
    ¬ (s.headEntry .a).purges < 2 ∧ (s.headEntry (otherHead .a)).state = .failed ∧
    s.line.state = .running ∧ s.request = none ∧
    2 ≤ (s.print.window ++ [VerifyResult.noread]).count VerifyResult.mismatch ∧
    ((lastSwap []).print.window ++ [VerifyResult.noread]).count VerifyResult.mismatch < 2 := by
  decide +kernel

/-- The converter at both edges of its range. -/
theorem witness_GaugeArithmetic :
    (-1 : Int) < 0 ∧ (4095 : Int) ≤ 4095 ∧ (0 : Int) ≤ 0 ∧
    job.wFixed ≤ 5000 ∧ job.wPm ≤ 250 ∧ (16 * (210 : Int) - 3367).natAbs ≤ 7 := by decide +kernel

/-- The gauge in a state, with its zero 3365 and its reference 3360. -/
def gauged (state : GaugeState) (zRef : Nat) (s : State) : State :=
  { s with gauge := { state := state, z16 := 3365, zRef := zRef } }

theorem witness_GapsMoveTheZero :
    pocketThere job job.gaugePos (gauged .active 3360 running) = some (8, firstGap) ∧
    firstGap.kind = .gap ∧
    ¬ (0 < job.driftLim ∧ 16 * job.driftLim < distance (zeroAfter 3365 210) 3360) ∧
    (0 < job.driftLim ∧ 16 * job.driftLim < distance (zeroAfter 3365 210) 3000) ∧
    pocketThere job job.gaugePos (gauged .suspended 3000 running) = some (8, firstGap) ∧
    pocketThere job job.gaugePos (gauged .calibrating 3000 running) = some (8, firstGap) ∧
    pocketThere job job.gaugePos (gauged .off 3000 running) = some (8, firstGap) := by decide +kernel

theorem witness_JudgedPocketsAreClassified :
    pocketThere job job.gaugePos (live 8) = some (8, pocket .live) ∧ (pocket .live).kind ≠ .gap ∧
    stateAtPitch job (live 8).track job.gaugePos = some .live ∧ (live 8).gauge.state = .active ∧
    pocketThere job job.gaugePos (gauged .suspended 3000 (live 8)) = some (8, pocket .live) ∧
    pocketContext (pocket .live) (live 8) = some (0, context) ∧
    (pocketThere job job.gaugePos (gauged .suspended 3000 (remade 8)) = some (8, pocket .faulted) ∧
      (pocketContext (pocket .faulted) (gauged .suspended 3000 (remade 8))).map (·.2.lastPocket) =
        some 12) ∧
    (pocketThere job job.gaugePos (holding (pocket .faulted) 8 running) = some (8, pocket .faulted) ∧
      stateAtPitch job (live 8).track job.gaugePos = some .live) ∧
    stateAtPitch job (holding (pocket .faulted) 8 running).track job.gaugePos ≠ some .live ∧
    verdictOf (thicknessOf 3450 3360 40) 4100 (toleranceOf job 4100) = .over := by decide +kernel

/-! ### Arrivals, faults and bundles -/

/-- Station 2 in another state. -/
def stationIs (state : StationState) (s : State) : State :=
  { s with stations := s.stations.set 2 { s.stations.get 2 with state := state } }

theorem witness_StationPrintAndVerifyArrivals_stations :
    ((live 2).stations.get 2).fitted = true ∧
    pocketThere job ((live 2).stations.get 2).position (live 2) = some (2, pocket .live) ∧
    (((live 2).stations.get 2).state = .online ∧ wants 2 (pocket .live) (live 2) = true) ∧
    wants 2 (pocket .faulted) (holding (pocket .faulted) 2 running) = false ∧
    wants 2 (pocket .live) (stationIs .bypassed (live 2)) = true ∧
    wants 2 (pocket .live) (stationIs .faulted (live 2)) = true ∧
    wants 2 (pocket .faulted) (stationIs .faulted (holding (pocket .faulted) 2 running)) = false := by
  decide +kernel

/-- No head is ACTIVE. -/
def headless (s : State) : State :=
  { s with print := { s.print with headA := { s.print.headA with state := .standby } } }

theorem witness_StationPrintAndVerifyArrivals_print :
    (pocketThere job job.printPos (live 5) = some (5, pocket .live) ∧
      stateAtPitch job (live 5).track job.printPos = some .live ∧
      pocketContext (pocket .live) (live 5) = some (0, context) ∧
      activeHead (live 5) = some .a) ∧
    (headActive (headless (live 5)) = false ∧
      pocketThere job job.printPos (headless (live 5)) = some (5, pocket .live) ∧
      pocketContext (pocket .live) (headless (live 5)) = some (0, context)) ∧
    (pocketThere job job.verifyPos (live 7) = some (7, pocket .live) ∧
      (pocket .live).pend.readBack = true ∧
      stateAtPitch job (live 7).track job.verifyPos = some .live) ∧
    (pocketThere job job.verifyPos (holding (pocket .faulted) 7 running) = some (7, pocket .faulted) ∧
      stateAtPitch job (holding (pocket .faulted) 7 running).track job.verifyPos = some .faulted) ∧
    firstGap.pend.readBack = false := by decide +kernel

/-- A drain of a line whose last page closes when the subscriber of the pocket at SEAL fails: its last
attempt, in the last bundle, on the last page. -/
def ending : State :=
  let s := holding (pocket .live) 10 (inLine { Line.reset with
    state := .draining, drain := some .endOfFile, fileExhausted := true, runEnable := true })
  { s with
    contexts := s.contexts.set 0 (some { context with attempts := 2 })
    bundles := [{ bundle with delivered := 1 }]
    fetcher := { s.fetcher with pages := [{ page with final := 1, tailRole := false }] }
    wrap := { s.wrap with run := 2 } }

theorem witness_FilmAndSealVerdicts_drains :
    ((wrapPart job ending.track ending).line.state = .complete ∧
      (wrapPart job ending.track ending).fetcher.pages = []) ∧
    (let s := { holding (pocket .live) 10 (draining .operator) with
        wrap := { (live 10).wrap with run := 2 } }
     s.line.state = .draining ∧ (wrapPart job s.track s).line.stop = .film) ∧
    (paused.line.state ≠ .running ∧ paused.line.state ≠ .draining) := by decide +kernel

theorem witness_FilmAndSealVerdicts :
    (filmed 110 (live 10)).job = some job ∧
    ((filmed 110 (live 10)).wrap.film - job.fNom).natAbs ≤ job.fTol ∧
    ¬ ((filmed 111 (live 10)).wrap.film - job.fNom).natAbs ≤ job.fTol ∧
    pocketThere job job.sealPos (filmed 110 (live 10)) = some (10, pocket .live) ∧
    stateAtPitch job (live 10).track job.sealPos = some .live ∧
    (live 10).wrap.sealOk = false ∧ startable.wrap.sealOk = true ∧
    min 15 ((live 10).wrap.run + 1) < job.filmFaultLimit ∧ job.filmFaultLimit ≤ min 15 (2 + 1) ∧
    stateAtPitch job running.track job.sealPos ≠ some .live := by decide +kernel

theorem witness_TheGateAndTheStacker :
    (pocketThere job job.rejectPos (live 12) = some (12, pocket .live) ∧
      pendingFaults (pocket .live) = (.noReport, some 0) :: [(.noReport, some 2),
        (.noReport, some 11), (.noPrintAck, none), (.noVerify, none)]) ∧
    pendingFaults { pocket .live with pend := firstGap.pend } = [] ∧
    pocketThere job job.rejectPos (holding (pocket .faulted) 12 running) =
      some (12, pocket .faulted) ∧
    pocketThere job job.rejectPos running = some (12, firstGap) ∧
    (pocketThere job (job.trackLen - 1) (live 15) = some (15, pocket .live) ∧
      pocketContext (pocket .live) (live 15) = some (0, context) ∧
      (live 15).stacker.pulse = none ∧ (live 15).stacker.held = [] ∧ context.sort = .inSort ∧
      pageAt context.pageSlot (live 15) = some page ∧ LinkOpen (live 15)) := by
  decide +kernel

/-- R143: of two entries of the read-back list, that of the pocket at REJECT leaves. -/
theorem witness_TheGateAndTheStacker_readBack :
    (pocket .live).pend.readBack = true ∧ (pocket .live).serial = readBack.pocket ∧
    (rejectArrival job { live 12 with print := { (live 12).print with
      readBacks := [readBack, { readBack with pocket := 10 }] } }).print.readBacks =
      [{ readBack with pocket := 10 }] := by decide +kernel

/-- The subscriber at the last position is out of sort. -/
def outOfSort : State :=
  { live 15 with contexts := (live 15).contexts.set 0 (some { context with sort := .oos }) }

/-- R163: an in-sort delivery counts in its bundle, an out-of-sort one in none. -/
theorem witness_TheGateAndTheStacker_bundles :
    (bundleAt context.ordinal (live 15) = some bundle ∧
      (lastArrival job (live 15)).bundles = [{ bundle with delivered := 1 }] ∧
      ({ bundle with delivered := 1 } : Bundle).resolved ≠ bundle.size) ∧
    (pocketThere job (job.trackLen - 1) outOfSort = some (15, pocket .live) ∧
      pocketContext (pocket .live) outOfSort = some (0, { context with sort := .oos }) ∧
      outOfSort.stacker.pulse = none ∧ outOfSort.stacker.held = [] ∧ LinkOpen outOfSort ∧
      (lastArrival job outOfSort).bundles = [bundle]) := by decide +kernel

theorem witness_LaterFaultsAreCounted :
    (holding (pocket .faulted) 4 running).track.pocketAt 4 = some (pocket .faulted) ∧
    (pocket .faulted).state = .faulted := by decide +kernel

/-- The subscriber has made its last attempt. -/
def lastAttempt : State :=
  { live 4 with contexts := (live 4).contexts.set 0 (some { context with attempts := 2 }) }

theorem witness_FirstFaultRule :
    ((live 4).job = some job ∧ (live 4).track.pocketAt 4 = some (pocket .live) ∧
      pocketContext (pocket .live) (live 4) = some (0, context) ∧
      context.attempts < 1 + job.remakeLimit ∧ bundleAt context.ordinal (live 4) = some bundle ∧
      bundle.state = .tailing) ∧
    (pocketContext (pocket .live) lastAttempt = some (0, { context with attempts := 2 }) ∧
      1 + job.remakeLimit ≤ 2 ∧ pageAt context.pageSlot lastAttempt = some page ∧
      LinkOpen lastAttempt) ∧
    (bundleAt context.ordinal { live 4 with bundles := [{ bundle with state := .settling }] }).map
      (·.state) = some .settling ∧
    ({ bundle with failed := 1 } : Bundle).resolved ≠ bundle.size ∧
    (let g := { bundle with delivered := 1, state := .settling }
     ({ g with outOfSort := g.outOfSort + 1 } : Bundle).resolved = g.size ∧
      g.state ≠ .doneWaiting ∧ ([g].map Bundle.ordinal).Nodup) := by decide +kernel

/-- The last subscriber of the front bundle makes its last attempt; its record stands in another page than the
one that opened the bundle. -/
def closingFailure : State :=
  { live 4 with
    contexts := (live 4).contexts.set 0 (some { context with pageSlot := 1, attempts := 2 })
    bundles := [{ bundle with delivered := 1 }]
    fetcher := { (live 4).fetcher with pages :=
      [{ page with final := 2, tailRole := false },
       { page with slot := 1, address := 0x101000, sequence := 2, count := 1, bundlesOpen := 0 }] } }

/-- R161: FAILED is written into its page before the report, with which the opening record's page closes. -/
theorem witness_FirstFaultRule_closes :
    (pocketContext (pocket .live) closingFailure = some (0, { context with pageSlot := 1, attempts := 2 }) ∧
      closingFailure.bundles.head? = bundleAt context.ordinal closingFailure ∧
      ({ bundle with delivered := 1 } : Bundle).resolved + 1 = bundle.size ∧
      (pageAt 0 closingFailure).map (·.bundlesOpen) = some 1 ∧ LinkOpen closingFailure) ∧
    (let t := handFault 4 .miss (some 2) false closingFailure
     t.bundles = [] ∧ t.fetcher.pages.map (·.slot) = [1] ∧
      (t.sent.filterMap fun m => match m with
        | .write a d => if 0x100000 ≤ a then some (a, d) else none
        | _ => none).drop 1 =
        [(0x101000 + 64 + 0xE8, [9, 0, 0, 0]), (0x101000 + 64 + 0xE0, [3]), (0x101000 + 0x14, [1, 0]),
         (0x100000 + 64 + 0xF0, [1, 0, 0, 0, 1, 0, 0, 0]), (0x100000 + 64 + 0xFC, [9, 0, 0, 0]),
         (0x100000 + 64 + 0xF8, [2]), (0x100000 + 0x10, [2])]) := by decide +kernel

/-! ### Input lines, halts, drains and the end -/

/-- A STACK pulse in progress, with these commands held. -/
def pulsing (held : List StackerCommand) : State :=
  { running with stacker := { pulse := some .stack, held := held } }

theorem witness_TheInputLines_stacker :
    State.reset.job = none ∧
    (running.inputs.stackerReady = true ∧ running.job ≠ none ∧ running.line.state = .running) ∧
    (paused.line.state ≠ .running ∧ paused.line.state ≠ .draining) ∧ running.stacker.pulse = none ∧
    (pulsing []).stacker.held = [] ∧ (pulsing [.bundleEject]).stacker.held = .bundleEject :: [] := by
  decide +kernel

theorem witness_TheInputLines_halts :
    (running.inputs.guardClosed = true ∧ running.job ≠ none ∧ TakesHalt running ∧ LinkOpen running ∧
      running.inputs.driveReady = true ∧ running.line.runEnable = true) ∧
    ¬ TakesHalt halted ∧ paused.line.runEnable = false := by decide +kernel

theorem witness_HaltLeavesNoLivePocketUpstream :
    (live 4).job = some job ∧ TakesHalt (live 4) ∧ (live 4).track.base < job.trackLen ∧
    job.trackLen ≤ 128 ∧ job.rejectPos < job.trackLen ∧
    (live 4).track.pocketAt (((live 4).track.base + 4) % job.trackLen) = some (pocket .live) ∧
    (live 13).track.pocketAt (((live 13).track.base + 13) % job.trackLen) = some (pocket .live) := by
  decide +kernel

/-- END has been seen and nothing is staged. -/
def endSeen (s : State) : State := { s with fetcher := { s.fetcher with endSeen := true } }

theorem witness_DrainsAndTheEndOfTheJob :
    ((draining .operator).line.state = .draining ∧ (draining .operator).line.drain = some .operator ∧
      ∀ j : Fin 128, ∀ k ∈ (draining .operator).track.pocketAt j.val,
        k.state ≠ .live ∧ k.state ≠ .faulted) ∧
    (∃ j : Fin 128, ∃ k ∈ (holding (pocket .live) 4 (draining .operator)).track.pocketAt j.val,
      k.state = .live) ∧
    ((endSeen (live 4)).job ≠ none ∧ (endSeen (live 4)).staging = [] ∧
      (endSeen (live 4)).line.fileExhausted = false ∧ (endSeen (live 4)).line.state = .running ∧
      (endSeen (live 4)).fetcher.pages ≠ []) ∧
    (endSeen running).fetcher.pages = [] ∧ (endSeen paused).line.state ≠ .running ∧
    (let s := inLine { Line.reset with
        state := .draining, drain := some .endOfFile, fileExhausted := true, runEnable := true }
     s.line.fileExhausted = true ∧ s.fetcher.pages = [] ∧ LinkOpen s) := by decide +kernel

/-- The front bundle is resolved; the one behind it waits for its turn, or does not. -/
def resolved : Bundle := { bundle with delivered := 1, failed := 1 }
def settledPages : State :=
  { live 4 with fetcher := { (live 4).fetcher with
      pages := [{ page with final := 2, bundlesOpen := 0, tailRole := false }] } }

theorem witness_BundlesAndPagesClose :
    (∀ b ∈ (live 4).bundles.head?, b.resolved ≠ b.size) ∧
    (let s := { live 4 with bundles :=
        [resolved, { resolved with ordinal := 2, state := .doneWaiting }, { bundle with ordinal := 3 }] }
     resolved.resolved = resolved.size ∧ (s.bundles.map Bundle.ordinal).Nodup ∧
      s.stacker.pulse = none ∧ s.stacker.held = [] ∧ LinkOpen s ∧
      pageAt resolved.pageSlot s = some page) ∧
    (∀ c ∈ ([{ bundle with ordinal := 3 }] : List Bundle).head?, c.state ≠ .doneWaiting) ∧
    settledPage (live 4) = none ∧
    (settledPage settledPages).map (·.slot) = some 0 ∧ LinkOpen settledPages := by decide +kernel

/-! ### The Page Fetcher, the link and the scanner -/

/-- The fetcher in a state behind page 1, with a link held. -/
def following (state : FetchState) (heldLink : Address) : State :=
  { live 4 with fetcher := { (live 4).fetcher with state := state, heldLink := heldLink } }

theorem witness_FetchStartAndLinkPoll :
    (ready.job = some job ∧ linkReading ready = false ∧ ready.fetcher.state = .waiting ∧
      fetchReady ready = true ∧ ready.fetcher.source = .first 0x100000 ∧
      pageAddressOk job.windowBase job.windowLimit 0x100000 = true) ∧
    ((following .waiting 0x300000).fetcher.source = .page 0x100000 ∧
      linkReading (following .waiting 0x300000) = false ∧
      fetchReady (following .waiting 0x300000) = true ∧
      pageAddressOk job.windowBase job.windowLimit 0x300000 = false ∧
      LinkOpen (following .waiting 0x300000)) ∧
    (following .waiting 0).fetcher.heldLink = 0 ∧
    (fetchReady complete = false ∧ complete.fetcher.state = .waiting) ∧
    ((following .polling 0).fetcher.state = .polling ∧ fetchReady (following .polling 0) = true) := by
  decide +kernel

theorem witness_LinkWordsAreTaken :
    .linkWord ∉ (live 4).link.outstanding ∧
    (linkAwaited.job = some job ∧ .linkWord ∈ linkAwaited.link.outstanding ∧
      retryingLink linkAwaited = false ∧ fieldAt (leBytes 8 0x101000) 0 8 = 0x101000 ∧
      linkAwaited.fetcher.state = .waiting ∧ fetchReady linkAwaited = true ∧
      pageAddressOk job.windowBase job.windowLimit 0x101000 = true ∧
      pageAddressOk job.windowBase job.windowLimit 0x101001 = false) ∧
    fetchReady { linkAwaited with staging := List.replicate 33 opening } = false := by decide +kernel

theorem witness_HeadersAreChecked :
    (let s := fetching none .pageHeader
     s.job = some job ∧ .pageHeader ∈ s.link.outstanding ∧ s.fetcher.state = .fetching ∧
      s.fetcher.fetch = some { address := 0x100000, header := none } ∧
      (∀ r ∈ s.request, r.phase = .handed) ∧ LinkOpen s ∧ s.fetcher.expected = 1) ∧
    (parseHeader (headerBytes 1 2 0) = header ∧ (parseHeader (headerBytes 2 2 0)).sequence ≠ 1) ∧
    (parseHeader (headerBytes 1 33 0)).count = 33 := by decide +kernel

/-- Whether the records of a page pass. -/
def passes (records : List Byte) : Bool :=
  match checkPage job recordsAwaited.fetcher header (parseRecords records header.count) with
  | .ok _ => true
  | .error _ => false

theorem witness_RecordsAreStaged :
    (recordsAwaited.job = some job ∧ .pageRecords ∈ recordsAwaited.link.outstanding ∧
      recordsAwaited.fetcher.state = .fetching ∧
      recordsAwaited.fetcher.fetch = some { address := 0x100000, header := some header } ∧
      (∀ r ∈ recordsAwaited.request, r.phase = .handed) ∧ recordsAwaited.fetcher.orphan = false ∧
      orphaned.fetcher.orphan = true ∧ LinkOpen orphaned ∧
      0 < header.count ∧ LinkOpen recordsAwaited) ∧
    passes (recordBytes 1001 40 2 ++ recordBytes 1002 40 0) = true ∧
    passes (recordBytes 1001 40 2 ++ recordBytes 1003 40 0) = false ∧
    (∃ n < 16, ∀ q ∈ recordsAwaited.fetcher.pages, q.slot ≠ n) ∧
    (let s := fetching (some { header with link := 0x300000 }) .pageRecords
     (after (.recordsReadDone ⟨.awaited, recordBytes 1001 40 2 ++ recordBytes 1002 40 0⟩) s
       ).fetcher.state = .linkRefused) ∧
    recordsAwaited.line.state ≠ .draining ∧
    (let s := fetching (some { header with ends := true }) .pageRecords
     let t := after (.recordsReadDone ⟨.awaited, recordBytes 1001 40 0 ++ recordBytes 1002 40 0⟩)
       { s with fetcher := { s.fetcher with orphan := true } }
     t.staging = [] ∧ t.fetcher.endSeen = true ∧ t.fetcher.lastClosed = 1) := by decide +kernel

/-- A page fetch was abandoned at a stop, and its read has not completed. -/
def abandoning : State := { paused with link := { paused.link with abandoned := [.pageRecords] } }

theorem witness_TheFirstFailureStopsAccess :
    (linkAwaited.fetcher.state ≠ .linkDown ∧ .linkWord ∈ linkAwaited.link.outstanding ∧
      TakesHalt linkAwaited ∧ linkAwaited.link.active = true ∧ linkAwaited.link.outstanding ≠ []) ∧
    ((live 4).link.outstanding = [] ∧ (live 4).link.abandoned = [] ∧ (live 4).link.waiting = []) ∧
    ((after (.readTimeout .linkWord) linkAwaited).fetcher.state = .linkDown ∧
      (after .pcieLinkInactive linkAwaited).fetcher.state = .linkDown) ∧
    (.linkWord ∉ (live 4).link.outstanding ∧ .linkWord ∉ (live 4).link.abandoned) ∧
    (.pageRecords ∈ abandoning.link.abandoned ∧ abandoning.fetcher.state ≠ .linkDown ∧
      .pageRecords ∉ abandoning.link.outstanding) ∧ ¬ TakesHalt halted := by decide +kernel

theorem witness_TheLinkAndTheScanTimer :
    (enabled.link.enable = true ∧ enabled.fetcher.state ≠ .linkDown ∧ LinkOpen enabled) ∧
    State.reset.link.enable = false ∧
    ({ enabled with link := { enabled.link with active := false } } : State).link.active = false ∧
    ([LinkItem.write 0x200 [1], .read 0 256].map fun i => match i with
        | .write a d => some (Message.write a d)
        | .read a n => some (Message.read a n)
        | .attention _ => none) = [Message.write 0x200 [1], .read 0 256].map some ∧
    LinkItem.attention .lineState ∈ [LinkItem.write 0x200 [1], .attention .lineState] := by
  decide +kernel

theorem witness_TheScannerTakesTheLowestSlot :
    (.requestSection ∈ scanned.link.outstanding ∧ scanned.request = none ∧
      scanned.link.enable = true ∧ LinkOpen scanned ∧
      byteAt (bytesWith 128 [(32, [1]), (96, [1])]) (32 * (1 : Fin 4).val) = 1 ∧
      ∀ m < (1 : Fin 4), byteAt (bytesWith 128 [(32, [1]), (96, [1])]) (32 * m.val) ≠ 1) ∧
    (∀ n : Fin 4, byteAt (List.replicate 128 0) (32 * n.val) ≠ 1) ∧
    (asking (request 2) scanned).request ≠ none ∧
    (asking (request 16) enabled).request = some (request 16) ∧ 15 < (request 16).code ∧
    (1 ≤ (request 15).code ∧ (request 15).code ≤ 15 ∧ (request 15).phase = .handed) := by
  decide +kernel

/-! ### Requests -/

theorem witness_LoadJobReadsTheProfile :
    (Asks 1 (request 1) (asking (request 1) enabled) ∧ enabled.line.state = .idle ∧
      enabled.fetcher.state ≠ .linkDown ∧ LinkOpen (asking (request 1) enabled)) ∧
    complete.line.state = .complete ∧
    (Asks 1 (request 1) (asking (request 1) paused) ∧ paused.line.state ≠ .idle ∧
      paused.line.state ≠ .complete) ∧
    (profileAwaited.request = some (request 1 0 0 .readingProfile) ∧
      .profile ∈ profileAwaited.link.outstanding ∧
      (parseProfile (List.replicate 256 0)).firstFailure = some 1) := by decide +kernel

theorem witness_AValidProfileStartsAJob :
    profileAwaited.request = some (request 1 0 0 .readingProfile) ∧
    .profile ∈ profileAwaited.link.outstanding ∧ profileAwaited.fetcher.state ≠ .linkDown ∧
    (parseProfile profileBytes).firstFailure = none ∧ LinkOpen profileAwaited ∧
    linkReading profileAwaited = false ∧
    (let s := { profileAwaited with link := { profileAwaited.link with
        outstanding := [.profile, .linkWord] } }
     .profile ∈ s.link.outstanding ∧ linkReading s = true) := by decide +kernel

theorem witness_StartRunsTheLine :
    (Asks 2 (request 2) startable ∧ startable.line.state = .ready ∧ startWeights startable = 0 ∧
      startable.line.fileExhausted = false ∧ headActive startable = false ∧
      startable.print.headA.state = .standby) ∧
    (let s := { startable with line := { Line.reset with state := .paused, fileExhausted := true }
                               fetcher := { startable.fetcher with pages := [page] } }
     Asks 2 (request 2) s ∧ startWeights s = 0 ∧ s.line.fileExhausted = true ∧
      s.fetcher.pages ≠ []) ∧
    (let s := { startable with line := { Line.reset with state := .paused, fileExhausted := true } }
     Asks 2 (request 2) s ∧ startWeights s = 0 ∧ s.line.fileExhausted = true ∧
      s.fetcher.pages = [] ∧ LinkOpen s) ∧
    (startable.job ≠ none ∧ startable.staging = [] ∧ startable.intake.holds.starved = false ∧
      LinkOpen startable) ∧
    (Asks 2 (request 2) (asking (request 2) paused) ∧ startWeights paused ≠ 0 ∧
      headActive paused = true) ∧
    (Asks 2 (request 2) (asking (request 2) running) ∧ running.line.state ≠ .ready ∧
      running.line.state ≠ .paused) := by decide +kernel

/-- The stacker reads not ready. -/
def unready (s : State) : State := { s with inputs := { s.inputs with stackerReady := false } }
/-- The guard is open. -/
def unguarded (s : State) : State := { s with inputs := { s.inputs with guardClosed := false } }

theorem witness_PauseDrainClearHalt :
    (Asks 3 (request 3) (asking (request 3) running) ∧ running.line.state = .running) ∧
    paused.line.state = .paused ∧ halted.line.state = .halted ∧
    (Asks 4 (request 4) (asking (request 4) (live 4)) ∧
      (∃ j : Fin 128, ∃ k ∈ (live 4).track.pocketAt j.val, k.state = .live) ∧
      ∀ j : Fin 128, ∀ k ∈ running.track.pocketAt j.val, k.state ≠ .live ∧ k.state ≠ .faulted) ∧
    (inputWeights paused = 0 ∧ inputWeights (unready paused) ≠ 0) ∧
    ((draining .operator).line.drain = some .operator ∧
      (draining .endOfFile).line.drain ≠ some .operator ∧
      (draining .endOfFile).line.state = .draining) ∧
    (Asks 5 (request 5) (asking (request 5) halted) ∧ halted.line.halt ≠ .link ∧
      halted.inputs.guardClosed = true ∧ (unguarded halted).inputs.guardClosed = false) := by
  decide +kernel

theorem witness_AbortJobEmptiesTheLine :
    (let s := asking (request 6) (holding (pocket .live) 4 paused)
     Asks 6 (request 6) s ∧ s.line.state = .paused ∧ s.fetcher.state ≠ .linkDown ∧ s.bundles ≠ [] ∧
      LinkOpen s) ∧
    (halted.line.state = .halted ∧ halted.line.halt ≠ .link) ∧ complete.line.state = .complete ∧
    ready.line.state = .ready ∧
    (Asks 6 (request 6) (asking (request 6) running) ∧ running.line.state = .running) := by
  decide +kernel

/-- The first page held. -/
def firstHeld : State :=
  { pageHeld with fetcher := { pageHeld.fetcher with source := .first 0x100000 } }

/-- A RETRY_PAGE in a phase, with a read awaited. -/
def retrying (phase : Phase) (kind : ReadKind) (s : State) : State :=
  asking (request 7 0 0 phase) { s with link := { s.link with outstanding := [kind] } }

theorem witness_RetryPage :
    (let s := asking (request 7) pageHeld
     s.job = some job ∧ Asks 7 (request 7) s ∧ s.fetcher.state = .pageHeld ∧
      s.fetcher.source = .page 0x100000) ∧
    (firstHeld.fetcher.source = .first 0x100000 ∧
      pageAddressOk job.windowBase job.windowLimit 0x100000 = true ∧
      pageAddressOk job.windowBase job.windowLimit 0x300000 = false) ∧
    (fetching none .pageHeader).fetcher.state = .fetching ∧
    ((live 4).fetcher.state ≠ .fetching ∧ (live 4).fetcher.state ≠ .pageHeld ∧
      (live 4).fetcher.state ≠ .linkRefused) ∧
    (let s := retrying .retryLink .linkWord pageHeld
     s.request = some (request 7 0 0 .retryLink) ∧ s.job = some job ∧
      .linkWord ∈ s.link.outstanding ∧ s.fetcher.state = .pageHeld ∧ fetchReady s = true ∧
      fieldAt (leBytes 8 0x300000) 0 8 = 0x300000 ∧ fieldAt (List.replicate 8 0) 0 8 = 0) ∧
    (let s := retrying .retryFetch .pageHeader (fetching none .pageHeader)
     s.request = some (request 7 0 0 .retryFetch) ∧ s.job = some job ∧
      .pageHeader ∈ s.link.outstanding ∧ s.fetcher.state = .fetching ∧
      checkHeader job s.fetcher 0x100000 (parseHeader (headerBytes 2 2 0)) ≠ none) ∧
    (let s := retrying .retryFetch .pageRecords recordsAwaited
     s.request = some (request 7 0 0 .retryFetch) ∧ .pageRecords ∈ s.link.outstanding ∧
      s.fetcher.state = .fetching ∧
      s.fetcher.fetch = some { address := 0x100000, header := some header }) := by decide +kernel

/-- A request that has waited for the end of a fetch, with a read of that fetch awaited. -/
def awaiting (code param0 : Nat) (kind : ReadKind) (s : State) : State :=
  asking (request code param0 0 .awaitingFetch) { s with link := { s.link with outstanding := [kind] } }

/-- R30: the requests carried out at the end of a fetch that refused its page, or accepted it. -/
theorem test_awaiting_requests :
    (let t := after (.headerReadDone ⟨.awaited, headerBytes 2 2 0⟩)
        (awaiting 7 0 .pageHeader (fetching none .pageHeader))
     t.request = some (request 7 0 0 .retryFetch) ∧ t.fetcher.state = .fetching) ∧
    (let t := after (.headerReadDone ⟨.awaited, headerBytes 2 2 0⟩)
        (awaiting 8 1 .pageHeader (fetching none .pageHeader))
     t.request = none ∧ t.fetcher.orphan = true ∧ t.fetcher.expected = 2) ∧
    (let t := after (.recordsReadDone ⟨.awaited, recordBytes 1001 40 2 ++ recordBytes 1002 40 0⟩)
        (awaiting 8 1 .pageRecords recordsAwaited)
     t.request = none ∧ t.fetcher.orphan = false ∧ t.fetcher.pages.length = 1) := by
  decide +kernel

theorem witness_RetryPage_awaiting :
    (let s := awaiting 7 0 .pageHeader (fetching none .pageHeader)
     s.job = some job ∧ s.request = some (request 7 0 0 .awaitingFetch) ∧
      s.fetcher.state = .fetching ∧ .pageHeader ∈ s.link.outstanding ∧
      s.fetcher.fetch = some { address := 0x100000, header := none } ∧
      s.fetcher.source = .first 0x100000 ∧
      checkHeader job s.fetcher 0x100000 (parseHeader (headerBytes 2 2 0)) ≠ none) ∧
    (let s := awaiting 7 0 .pageRecords recordsAwaited
     .pageRecords ∈ s.link.outstanding ∧
      s.fetcher.fetch = some { address := 0x100000, header := some header }) ∧
    passes (recordBytes 1001 40 2 ++ recordBytes 1002 40 0) = true ∧
    passes (recordBytes 1001 40 2 ++ recordBytes 1003 40 0) = false ∧
    (let s := asking (request 7) enabled
     s.job = none ∧ Asks 7 (request 7) s) := by decide +kernel

theorem witness_SkipPage_awaiting :
    (let s := awaiting 8 1 .pageHeader (fetching none .pageHeader)
     s.job = some job ∧ s.request = some (request 8 1 0 .awaitingFetch) ∧
      s.fetcher.state = .fetching ∧ .pageHeader ∈ s.link.outstanding ∧
      s.fetcher.fetch = some { address := 0x100000, header := none } ∧
      checkHeader job s.fetcher 0x100000 (parseHeader (headerBytes 2 2 0)) = some .sequence ∧
      (request 8 1).param0 = s.fetcher.expected ∧ (request 8 3).param0 ≠ s.fetcher.expected) ∧
    (let s := asking (request 8) enabled
     s.job = none ∧ Asks 8 (request 8) s) := by decide +kernel

theorem witness_SkipPage :
    ((live 4).fetcher.state ≠ .fetching ∧ (live 4).fetcher.state ≠ .pageHeld) ∧
    (fetching none .pageHeader).fetcher.state = .fetching ∧
    (let s := asking (request 8 2) pageHeld
     s.job = some job ∧ Asks 8 (request 8 2) s ∧ s.fetcher.state = .pageHeld ∧
      s.fetcher.held.isSome = true ∧ (request 8 2).param0 = s.fetcher.heldShown ∧
      s.fetcher.tail = none ∧ LinkOpen s) ∧
    (request 8 3).param0 ≠ pageHeld.fetcher.heldShown ∧
    (broken.fetcher.orphan = false ∧
      broken.fetcher.tail = some { key := 40, size := 4, read := 2, ordinal := 1 } ∧
      broken.staging = [] ∧
      bundleAt 1 broken = some { bundle with size := 4, state := .feeding } ∧
      (broken.bundles.map Bundle.ordinal).Nodup ∧ bundle.resolved + 2 ≠ 4 ∧
      (∀ c ∈ broken.bundles, c.state ≠ .tailing) ∧ broken.intake.window = some 2) ∧
    (let g := { bundle with size := 4, delivered := 2, state := .feeding }
     g.resolved + 2 = g.size ∧ g.state ≠ .doneWaiting) ∧
    (opening.ordinal = 1 ∧ 1 ≤ opening.size) := by decide +kernel

theorem witness_SetStation :
    (let s := asking (request 9 2 1) ready
     s.job = some job ∧ Asks 9 (request 9 2 1) s ∧ (request 9 2 1).param0 = (2 : Fin 12).val ∧
      (s.stations.get 2).fitted = true ∧ (s.stations.get 2).state = .online) ∧
    11 < (request 9 12).param0 ∧ (ready.stations.get 3).fitted = false ∧
    ((stationIs .bypassed lost).stations.get 2).lastState = some .ready ∧
    ((stationIs .bypassed ready).stations.get 2).lastState ≠ some .ready ∧
    (lost.stations.get 2).state = .faulted ∧
    (Asks 9 (request 9 2 1) (asking (request 9 2 1) enabled) ∧ enabled.job = none) := by decide +kernel

theorem witness_ClearStationAndSetThickness :
    (let s := asking (request 10 2) lost
     s.job = some job ∧ Asks 10 (request 10 2) s ∧ (s.stations.get 2).fitted = true ∧
      (s.stations.get 2).state = .faulted ∧ (s.stations.get 2).lastState = some .ready ∧
      (s.stations.get 2).cause = some .lost) ∧
    ((stationIs .faulted ready).stations.get 2).lastState ≠ some .ready ∧
    (ready.stations.get 3).fitted = false ∧ (ready.stations.get 2).state ≠ .faulted ∧
    (let s := asking (request 11 2 420) ready
     s.job = some job ∧ Asks 11 (request 11 2 420) s ∧ s.line.state = .ready ∧
      (request 11 2 420).param1 ≤ 20000 ∧ fittedThickness s.stations ≤ 60000) ∧
    (Asks 10 (request 10 2) (asking (request 10 2) enabled) ∧ enabled.job = none ∧
      11 < (request 10 12).param0) ∧
    20000 < (request 11 2 20001).param1 ∧ running.line.state ≠ .ready ∧
    running.line.state ≠ .paused := by decide +kernel

theorem witness_GaugeAndHeadRequests :
    (Asks 12 (request 12) (asking (request 12) ready) ∧ ready.gauge.state ≠ .off ∧
      (gauged .off 0 ready).gauge.state = .off) ∧
    (let s := asking (request 13 1) running
     s.job = some job ∧ Asks 13 (request 13 1) s ∧ job.headFitted .b = true ∧
      (s.headEntry .b).state = .standby) ∧
    (request 13 0).param0 = 0 ∧ (running.headEntry .a).state ≠ .standby ∧
    (let s := asking (request 14 1) lastHead
     Asks 14 (request 14 1) s ∧ (s.headEntry .b).state = .failed) ∧
    (let s := asking (request 13 2) running
     Asks 13 (request 13 2) s ∧ s.job = some job ∧ 1 < (request 13 2).param0) ∧
    (let s := asking (request 14 2) running
     Asks 14 (request 14 2) s ∧ s.job = some job ∧ 1 < (request 14 2).param0) ∧
    (enabled.job = none ∧ Asks 13 (request 13 1) (asking (request 13 1) enabled) ∧
      Asks 14 (request 14 1) (asking (request 14 1) enabled) ∧
      Asks 12 (request 12) (asking (request 12) enabled)) ∧
    ({ job with headBFitted := false } : Profile).headFitted .b = false := by decide +kernel

theorem witness_SnapshotAndRefresh :
    (Asks 15 (request 15) (asking (request 15) enabled) ∧ enabled.job = none) ∧
    (Asks 15 (request 15) (asking (request 15) ready) ∧ ready.job ≠ none ∧
      LinkOpen (asking (request 15) ready)) := by decide +kernel

end Sys2Proof.Machine.Tests
end

section
/-! The Pocket Table and the contexts entry by entry: what each change leaves in each entry (R6, R10, R14). -/

namespace Sys2Proof.Machine

/-! ## The Pocket Table -/

/-- Only the 128 entries of the table hold pockets (R6). -/
theorem Track.pocketAt_lt {t : Track} {i : Nat} {k : Pocket} (h : t.pocketAt i = some k) :
    i < 128 := by
  by_contra hi
  simp [Track.pocketAt, Nat.not_lt.mp hi] at h

theorem Track.pocketAt_get (t : Track) (i : Fin 128) : t.pocketAt i.val = t.entries.get i := by
  simp [Track.pocketAt, Vector.get_eq_getElem]

theorem Track.setPocket_at (t : Track) {i : Nat} (hi : i < 128) (k : Option Pocket) (j : Nat) :
    (t.setPocket i k).pocketAt j = if j = i then k else t.pocketAt j := by
  unfold Track.setPocket Track.pocketAt
  by_cases h : j = i
  · subst h; simp [hi]
  · simp [h, Vector.getElem?_setIfInBounds_ne (Ne.symm h)]

theorem setPocket_at {i : Nat} (hi : i < 128) (k : Pocket) (s : State) (j : Nat) :
    (setPocket i k s).track.pocketAt j = if j = i then some k else s.track.pocketAt j :=
  Track.setPocket_at _ hi _ _

/-- A pocket takes the place of one already there. -/
theorem setPocket_there {i : Nat} {k : Pocket} {s : State} (h : s.track.pocketAt i = some k)
    (q : Pocket) : (setPocket i q s).track.pocketAt i = some q := by
  rw [setPocket_at (Track.pocketAt_lt h), if_pos rfl]

theorem setPocket_elsewhere {i j : Nat} (h : j ≠ i) (k : Pocket) (s : State) :
    (setPocket i k s).track.pocketAt j = s.track.pocketAt j := by
  simp [setPocket, Track.setPocket, Track.pocketAt, Vector.getElem?_setIfInBounds_ne (Ne.symm h)]

/-- Nothing of the table but its entries changes. -/
@[simp] theorem setPocket_track (i : Nat) (k : Pocket) (s : State) :
    (setPocket i k s).track.base = s.track.base ∧
    (setPocket i k s).track.nextSerial = s.track.nextSerial ∧
    (setPocket i k s).track.accumulator = s.track.accumulator ∧
    (setPocket i k s).track.deficit = s.track.deficit ∧
    (setPocket i k s).track.raised = s.track.raised := ⟨rfl, rfl, rfl, rfl, rfl⟩

/-- Every pocket drops its reference to a context that is freed (R14). -/
theorem freeContext_at (i : Nat) (s : State) (j : Nat) :
    (freeContext i s).track.pocketAt j = (s.track.pocketAt j).map (Pocket.dropReference i) := by
  simp only [freeContext, Track.pocketAt, Vector.getElem?_map]
  cases s.track.entries[j]? <;> rfl

@[simp] theorem freeContext_track (i : Nat) (s : State) :
    (freeContext i s).track.base = s.track.base ∧
    (freeContext i s).track.nextSerial = s.track.nextSerial ∧
    (freeContext i s).track.accumulator = s.track.accumulator ∧
    (freeContext i s).track.deficit = s.track.deficit ∧
    (freeContext i s).track.raised = s.track.raised := ⟨rfl, rfl, rfl, rfl, rfl⟩

/-- READ_BACK leaves the pending set of the pocket (R110). -/
theorem dropReadBack_there {i : Nat} {k : Pocket} {s : State} (h : s.track.pocketAt i = some k) :
    (dropReadBack i k s).track.pocketAt i =
      some { k with pend := { k.pend with readBack := false } } :=
  setPocket_there (s := { s with print := _ }) h _

/-- The pocket at a position is the one its entry holds. -/
theorem pocketThere_some {p : Profile} {n i : Nat} {k : Pocket} {s : State}
    (h : pocketThere p n s = some (i, k)) :
    i = entryIndex p n s ∧ s.track.pocketAt i = some k := by
  unfold pocketThere at h
  obtain ⟨q, hq, e⟩ := Option.map_eq_some_iff.mp h
  cases e
  exact ⟨rfl, hq⟩

/-! ## The contexts -/

theorem contextAt_lt {i : Nat} {c : Context} {s : State} (h : contextAt i s = some c) :
    i < 128 := by
  by_contra hi
  simp [contextAt, Nat.not_lt.mp hi] at h

theorem setContext_at {i : Nat} (hi : i < 128) (c : Option Context) (s : State) (j : Nat) :
    contextAt j (setContext i c s) = if j = i then c else contextAt j s := by
  unfold setContext contextAt
  by_cases h : j = i
  · subst h; simp [hi]
  · simp [h, Vector.getElem?_setIfInBounds_ne (Ne.symm h)]

theorem freeContext_contextAt (i : Nat) (s : State) (j : Nat) :
    contextAt j (freeContext i s) = if j = i then none else contextAt j s := by
  unfold freeContext contextAt
  by_cases h : j = i
  · subst h
    by_cases hj : j < 128
    · simp [hj]
    · simp [Nat.not_lt.mp hj]
  · simp [h, Vector.getElem?_setIfInBounds_ne (Ne.symm h)]

/-- The context that a pocket names is the one its entry holds. -/
theorem pocketContext_some {k : Pocket} {i : Nat} {c : Context} {s : State}
    (h : pocketContext k s = some (i, c)) :
    contextAt i s = some c ∧ ∃ r, k.subscriber = some r ∧ r.context = i := by
  unfold pocketContext at h
  split at h
  · simp at h
  · next r hr =>
    obtain ⟨d, hd, e⟩ := Option.map_eq_some_iff.mp h
    cases e
    exact ⟨hd, r, hr, rfl⟩

end Sys2Proof.Machine
end

section
/-! What the shared operations keep of the job: the loaded profile, the line in or out of IDLE, the
encoder's counts, the place of the table, the pockets where they stand, and the ranges of the units'
counts. Each operation is taken apart once, for any relation that the primitive changes keep (`Keeps`);
`Steady` and `Coasts` are the two relations used. -/

namespace Sys2Proof.Machine

/-! ## The ranges, unit by unit -/

/-- The film count and the run of verdicts stand in their ranges (R123, R126). -/
def WrapInRange (w : Wrap) : Prop := w.film.natAbs ≤ 65535 ∧ w.run ≤ 15

/-- A head's purge count and NOREAD run stand in their ranges (R104). -/
def HeadInRange (e : HeadEntry) : Prop := e.purges ≤ 2 ∧ e.run ≤ 15

/-- Both heads and the verify window stand in their ranges (R104, R120). -/
def PrintInRange (u : PrintUnit) : Prop :=
  HeadInRange u.headA ∧ HeadInRange u.headB ∧ u.window.length ≤ 8

/-- A station's consecutive counts stand in their ranges (R74). -/
def StationInRange (e : Station) : Prop := e.misses ≤ 15 ∧ e.doubles ≤ 15

/-- The consecutive counts of every station stand in their ranges (R74). -/
def StationsInRange (v : Vector Station 12) : Prop := ∀ n : Fin 12, StationInRange (v.get n)

/-- The tail-window counter stands in its range (R56). -/
def WindowInRange (w : Option Nat) : Prop := ∀ n, w = some n → n ≤ 255

/-- The zeros of the gauge stand in their ranges (R87). -/
def GaugeInRange (g : Gauge) : Prop := g.z16 ≤ 65520 ∧ g.zRef ≤ 65520

/-- The count ranges are those of the track and those of each unit. -/
theorem countsInRange_iff (s : State) : CountsInRange s ↔
    (∀ p, s.profile = some p → s.track.accumulator < p.cpp) ∧ s.track.deficit ≤ 65535 ∧
    WrapInRange s.wrap ∧ PrintInRange s.print ∧ StationsInRange s.stations ∧
    WindowInRange s.intake.window ∧ GaugeInRange s.gauge := by
  unfold CountsInRange WrapInRange PrintInRange HeadInRange StationsInRange StationInRange
    WindowInRange GaugeInRange
  tauto

/-- A new film count has begun with the runaway mark clear (R124). -/
def FilmClear (w : Wrap) : Prop := w.film = 0 ∧ w.runaway = false

/-- The units' counts stay in their ranges, and a film count just begun stays at 0. A field that an
operation does not touch is left to its frame lemma. -/
structure UnitsKept (s t : State) : Prop where
  wrap : WrapInRange s.wrap → WrapInRange t.wrap := by intro h; simpa using h
  clear : FilmClear s.wrap → FilmClear t.wrap := by intro h; simpa using h
  print : PrintInRange s.print → PrintInRange t.print := by intro h; simpa using h
  stations : StationsInRange s.stations → StationsInRange t.stations := by intro h; simpa using h
  window : WindowInRange s.intake.window → WindowInRange t.intake.window := by intro h; simpa using h
  gauge : GaugeInRange s.gauge → GaugeInRange t.gauge := by intro h; simpa using h

theorem UnitsKept.trans {s t u : State} (h : UnitsKept s t) (k : UnitsKept t u) : UnitsKept s u where
  wrap w := k.wrap (h.wrap w)
  clear w := k.clear (h.clear w)
  print w := k.print (h.print w)
  stations w := k.stations (h.stations w)
  window w := k.window (h.window w)
  gauge w := k.gauge (h.gauge w)

theorem UnitsKept.of_same {s t : State} (hw : t.wrap = s.wrap) (hp : t.print = s.print)
    (hs : t.stations = s.stations) (hi : t.intake.window = s.intake.window)
    (hg : t.gauge = s.gauge) : UnitsKept s t where
  wrap w := hw ▸ w
  clear w := hw ▸ w
  print w := hp ▸ w
  stations w := hs ▸ w
  window w := hi ▸ w
  gauge w := hg ▸ w

/-- A change of the line record clears at most the runaway mark (R127). -/
theorem setLine_units (l : Line) (s : State) : UnitsKept s (setLine l s) where
  wrap w := by rw [setLine_wrap]; split <;> exact w
  clear w := by rw [setLine_wrap]; split <;> simp_all [FilmClear]

/-! ## Relations that the primitive changes keep -/

/-- A GAP with nothing in it (R10, R47). -/
def Pocket.isGap (k : Pocket) : Prop := k.kind = .gap ∧ k.state = .empty ∧ k.subscriber = none

/-- A pocket's record after a change that leaves it the same pocket, and a GAP a GAP. -/
def Pocket.Becomes (k q : Pocket) : Prop := q.serial = k.serial ∧ (k.isGap → q.isGap)

/-- A relation between states that is kept by the primitive changes made behind a fault, a stop cause and
the parts of a pitch event but its fill. -/
structure Keeps (R : State → State → Prop) : Prop where
  trans : ∀ {s t u}, R s t → R t u → R s u
  units : ∀ {s t : State}, t.profile = s.profile → t.staging = s.staging → t.track = s.track →
    t.remakes = s.remakes → t.line = s.line → UnitsKept s t → R s t
  stops : ∀ l s, (s.line.state = .running ∨ s.line.state = .draining) → l.state ≠ .idle →
    R s (setLine l s)
  pocket : ∀ {i : Nat} {k : Pocket} (q : Pocket) (s : State), s.track.pocketAt i = some k →
    k.Becomes q → R s (setPocket i q s)
  frees : ∀ i s, R s (freeContext i s)
  queues : ∀ r (s : State), R s { s with remakes := s.remakes ++ [r] }

section
variable {R : State → State → Prop}

/-- Nothing that the relation looks at has changed. -/
theorem Keeps.same (B : Keeps R) {s t : State} (hp : t.profile = s.profile)
    (hs : t.staging = s.staging) (ht : t.track = s.track) (hr : t.remakes = s.remakes)
    (hl : t.line = s.line) (hw : t.wrap = s.wrap) (hu : t.print = s.print)
    (hv : t.stations = s.stations) (hi : t.intake.window = s.intake.window)
    (hg : t.gauge = s.gauge) : R s t :=
  B.units hp hs ht hr hl (.of_same hw hu hv hi hg)

theorem Keeps.refl (B : Keeps R) (s : State) : R s s :=
  B.same rfl rfl rfl rfl rfl rfl rfl rfl rfl rfl

theorem Keeps.link (B : Keeps R) {s t : State} (h : SameButLink t s) : R s t := by
  obtain ⟨-, -, hp, -, hs, -, hi, ht, hv, -, hg, hu, hw, hr, -, -, -, hl, -⟩ := h
  exact B.same hp hs ht hr hl hw hu hv (by rw [hi]) hg

theorem Keeps.fetcher (B : Keeps R) {s t : State} (h : SameButFetcher t s) : R s t := by
  obtain ⟨-, -, hp, hs, -, hi, ht, hv, -, hg, hu, hw, hr, -, -, -, hl, -⟩ := h
  exact B.same hp hs ht hr hl hw hu hv (by rw [hi]) hg

theorem Keeps.applyIf (B : Keeps R) {c : Bool} {f : State → State} {s : State}
    (h : c = true → R s (f s)) : R s (applyIf c f s) := by
  unfold Machine.applyIf; split
  · next hc => exact h hc
  · exact B.refl s

theorem Keeps.foldl (B : Keeps R) {α : Type} (f : State → α → State) (h : ∀ u a, R u (f u a))
    (l : List α) (s : State) : R s (l.foldl f s) := by
  induction l generalizing s with
  | nil => exact B.refl s
  | cons a l ih => exact B.trans (h s a) (ih _)

/-! ## The line, the hold causes and the fetcher -/

theorem refreshHolds_keeps (B : Keeps R) (s : State) : R s (refreshHolds s) :=
  B.same (by simp) (by simp) (by simp) (by simp) (by simp) (by simp) (by simp) (by simp) (by simp)
    (by simp)

theorem settle_keeps (B : Keeps R) (s : State) : R s (settle s) :=
  B.trans (B.fetcher (fetchStep_frame s)) (refreshHolds_keeps B _)

theorem changeLine_keeps (B : Keeps R) (l : Line) (s : State)
    (h : s.line.state = .running ∨ s.line.state = .draining) (hl : l.state ≠ .idle) :
    R s (changeLine l s) :=
  B.trans (B.trans (B.stops l s h hl) (refreshHolds_keeps B _))
    (B.applyIf fun _ => B.link (raise_frame _ _))

theorem completionTest_keeps (B : Keeps R) (s : State) : R s (completionTest s) := by
  unfold completionTest; split
  · next h =>
    have hd : s.line.state = .draining := by simp only [completionDue] at h; simp_all
    exact B.trans (changeLine_keeps B _ s (.inr hd) (by simp)) (B.link (raise_frame _ _))
  · exact B.refl s

/-! ## Pages, outcomes and reports -/

theorem closePage_keeps (B : Keeps R) (q : OpenPage) (s : State) : R s (closePage q s) := by
  unfold closePage
  simp only []
  refine B.trans ?_ (completionTest_keeps B _)
  exact B.fetcher (by simp [SameButFetcher, LinkKept])

theorem closeIfSettled_keeps (B : Keeps R) (n : Nat) (s : State) : R s (closeIfSettled n s) := by
  unfold closeIfSettled; split
  · exact B.refl s
  · split
    · exact closePage_keeps B _ s
    · exact B.refl s

theorem releaseSkipped_keeps (B : Keeps R) (s : State) : R s (releaseSkipped s) := by
  unfold releaseSkipped; split
  · exact B.refl s
  · simp only []
    split
    · exact B.fetcher (by simp [SameButFetcher, LinkKept])
    · refine B.trans ?_ (completionTest_keeps B _)
      exact B.fetcher (by simp [SameButFetcher, LinkKept])

theorem releaseTail_keeps (B : Keeps R) (n : Option Nat) (s : State) : R s (releaseTail n s) := by
  unfold releaseTail
  refine B.trans (releaseSkipped_keeps B s) ?_
  simp only []
  split
  · exact B.refl _
  · exact B.trans (B.fetcher (updatePage_frame _ _ _)) (closeIfSettled_keeps B _ _)

theorem writeOutcome_keeps (B : Keeps R) (n k : Nat) (f : OutcomeFields) (o : PieceOutcome)
    (s : State) : R s (writeOutcome n k f o s) :=
  B.trans (B.fetcher (putOutcome_frame n k f o s)) (closeIfSettled_keeps B _ _)

theorem writeReport_keeps (B : Keeps R) (b : Bundle) (c : CloseState) (w : Word) (s : State) :
    R s (writeReport b c w s) :=
  B.trans (B.fetcher (putReport_frame b c w s)) (closeIfSettled_keeps B _ _)

/-! ## Contexts, the stacker and bundles -/

theorem setContext_keeps (B : Keeps R) (i : Nat) (c : Option Context) (s : State) :
    R s (setContext i c s) := B.same rfl rfl rfl rfl rfl rfl rfl rfl rfl rfl

theorem updatePocketContext_keeps (B : Keeps R) (k : Pocket) (f : Context → Context) (s : State) :
    R s (updatePocketContext k f s) := by
  unfold updatePocketContext; split
  · exact B.refl s
  · exact setContext_keeps B _ _ s

theorem updateLatestContext_keeps (B : Keeps R) (k : Pocket) (f : Context → Context) (s : State) :
    R s (updateLatestContext k f s) := by
  rcases updateLatestContext_cases k f s with h | ⟨i, c, -, -, h⟩ <;> rw [h]
  · exact B.refl s
  · exact setContext_keeps B _ _ s

theorem issueCommand_keeps (B : Keeps R) (c : StackerCommand) (s : State) :
    R s (issueCommand c s) :=
  B.same (by simp) (by simp) (by simp) (by simp) (by simp) (by simp) (by simp) (by simp) (by simp)
    (by simp)

theorem updateBundle_keeps (B : Keeps R) (n : Nat) (f : Bundle → Bundle) (s : State) :
    R s (updateBundle n f s) := B.same rfl rfl rfl rfl rfl rfl rfl rfl rfl rfl

theorem removeBundle_keeps (B : Keeps R) (b : Bundle) (c : CloseState) (s : State) :
    R s (removeBundle b c s) := by
  unfold removeBundle
  refine B.trans ?_ (B.link (bump_frame _ _))
  refine B.trans ?_ (B.link (raise_frame _ _))
  refine B.trans ?_ (refreshHolds_keeps B _)
  exact B.same rfl rfl rfl rfl rfl rfl rfl rfl rfl rfl

theorem closeBundle_keeps (B : Keeps R) (b : Bundle) (w : Word) (s : State) :
    R s (closeBundle b w s) := by
  unfold closeBundle
  refine B.trans ?_ (removeBundle_keeps B _ _ _)
  refine B.trans ?_ (writeReport_keeps B _ _ _ _)
  refine B.trans ?_ (B.applyIf fun _ => issueCommand_keeps B _ _)
  exact B.applyIf fun _ => issueCommand_keeps B _ _

theorem closeWaiting_keeps (B : Keeps R) (w : Word) (l : List Bundle) (s : State) :
    R s (closeWaiting w l s) := by
  induction l generalizing s with
  | nil => exact B.refl s
  | cons b l ih =>
    unfold closeWaiting; split
    · exact B.trans (closeBundle_keeps B _ _ _) (ih _)
    · exact B.refl s

theorem closeFront_keeps (B : Keeps R) (w : Word) (s : State) : R s (closeFront w s) := by
  unfold closeFront; split
  · exact B.refl s
  · exact B.trans (closeBundle_keeps B _ _ _) (closeWaiting_keeps B _ _ _)

/-- A window that ends leaves the tail-window counter absent (R59). -/
theorem endWindow_keeps (B : Keeps R) (n : Nat) (s : State) : R s (endWindow n s) := by
  unfold endWindow
  refine B.trans ?_ (refreshHolds_keeps B _)
  refine B.trans ?_ (updateBundle_keeps B n _ _)
  exact B.units rfl rfl rfl rfl rfl { window := fun _ _ h => by simp at h }

theorem countAndTest_keeps (B : Keeps R) (n : Nat) (f : Bundle → Bundle) (s : State) :
    R s (countAndTest n f s) := B.trans (updateBundle_keeps B _ _ _) (refreshHolds_keeps B _)

theorem resolutionTest_keeps (B : Keeps R) (n : Nat) (w : Word) (s : State) :
    R s (resolutionTest n w s) := by
  unfold resolutionTest; split
  · exact B.refl s
  · next b _ =>
    split
    · simp only []
      refine B.trans (B.applyIf (c := b.inWindow) (f := endWindow n) fun _ =>
        endWindow_keeps B n s) ?_
      split
      · exact closeFront_keeps B _ _
      · exact updateBundle_keeps B _ _ _
    · exact B.refl s

theorem expiryTest_keeps (B : Keeps R) (p : Profile) (s : State) : R s (expiryTest p s) := by
  unfold expiryTest; split
  · exact B.refl s
  · split
    · exact endWindow_keeps B _ _
    · exact B.refl s

theorem askSortClass_keeps (B : Keeps R) (n : Nat) (w : Word) (s : State) :
    R s (askSortClass n w s).2 := by
  unfold askSortClass; split
  · exact B.refl s
  · split
    · exact B.refl s
    · exact B.refl s
    · exact B.trans (updateBundle_keeps B _ _ _) (resolutionTest_keeps B _ _ _)
    · exact B.refl s

/-! ## Faults -/

theorem queueRemake_keeps (B : Keeps R) (i : Nat) (c : Context) (w : Word) (s : State) :
    R s (queueRemake i c w s) := by
  unfold queueRemake
  cases c.sort
  · refine B.trans ?_ (B.link (bump_frame _ _))
    refine B.trans ?_ (B.queues _ _)
    exact B.trans (askSortClass_keeps B c.ordinal w s) (setContext_keeps B i _ _)
  · refine B.trans ?_ (B.link (bump_frame _ _))
    exact B.trans (setContext_keeps B i _ s) (B.queues _ _)

theorem failSubscriber_keeps (B : Keeps R) (i : Nat) (c : Context) (w : Word) (s : State) :
    R s (failSubscriber i c w s) := by
  unfold failSubscriber
  refine B.trans ?_ (B.applyIf fun _ => resolutionTest_keeps B _ _ _)
  refine B.trans ?_ (B.frees _ _)
  refine B.trans ?_ (writeOutcome_keeps B _ _ _ _ _)
  exact B.applyIf fun _ => updateBundle_keeps B _ _ _

theorem firstFault_keeps (B : Keeps R) (i : Nat) (k : Pocket) (f : PocketFault) (s : State)
    (hk : s.track.pocketAt i = some k) (hl : k.state = .live) : R s (firstFault i k f s) := by
  have hq : k.Becomes { k with state := .faulted, fault := some f } :=
    ⟨rfl, fun h => by simp [Pocket.isGap, hl] at h⟩
  unfold firstFault
  simp only []
  refine B.trans (B.trans (B.pocket _ s hk hq) (B.link (bump_frame .firstFaults _))) ?_
  split
  · exact B.refl _
  · next j c _ =>
    refine B.trans (setContext_keeps B j (some { c with lastFault := some (f.cause, f.station) }) _) ?_
    split
    · exact queueRemake_keeps B _ _ _ _
    · exact failSubscriber_keeps B _ _ _ _

theorem handFault_keeps (B : Keeps R) (i : Nat) (c : FaultCause) (n : Option (Fin 12)) (b : Bool)
    (s : State) : R s (handFault i c n b s) := by
  unfold handFault; split
  · exact B.refl s
  · next k hk =>
    split
    · next hl => exact firstFault_keeps B i k _ s hk hl
    · exact B.link (bump_frame _ _)
    · exact B.refl s

/-! ## Stops and drains -/

theorem enterPaused_keeps (B : Keeps R) (c : StopCause) (s : State)
    (h : s.line.state = .running ∨ s.line.state = .draining) : R s (enterPaused c s) := by
  unfold enterPaused
  refine B.trans (B.link (bump_frame .pauses s)) (B.trans ?_ (settle_keeps B _))
  exact changeLine_keeps B _ _ (by simpa using h) (by simp)

theorem drainEndTest_keeps (B : Keeps R) (s : State) : R s (drainEndTest s) := by
  unfold drainEndTest; split
  · next h =>
    have hd : s.line.state = .draining := by simp only [drainEndDue] at h; simp_all
    exact enterPaused_keeps B _ s (.inr hd)
  · exact B.refl s

theorem enterOperatorDrain_keeps (B : Keeps R) (c : StopCause) (d : HaltCause) (s : State)
    (h : s.line.state = .running ∨ s.line.state = .draining) : R s (enterOperatorDrain c d s) := by
  unfold enterOperatorDrain
  refine B.trans (B.link (bump_frame .drains s)) (B.trans ?_ (drainEndTest_keeps B _))
  refine B.trans ?_ (settle_keeps B _)
  exact changeLine_keeps B _ _ (by simpa using h) (by simp)

theorem takeNoPrint_keeps (B : Keeps R) (s : State) : R s (takeNoPrint s) := by
  unfold takeNoPrint; split
  · next h => exact enterOperatorDrain_keeps B _ _ s (.inl h)
  · next h =>
    split
    · exact B.stops _ s (.inr h) (by simp [h])
    · exact enterOperatorDrain_keeps B _ _ s (.inr h)
  · exact B.refl s

theorem raiseStop_keeps (B : Keeps R) (c : StopCause) (s : State) : R s (raiseStop c s) := by
  unfold raiseStop; split
  · exact takeNoPrint_keeps B s
  · split
    · next h => exact enterPaused_keeps B c s (.inl h)
    · next h => exact enterPaused_keeps B c s (.inr h)
    · exact B.refl s

/-! ## Heads -/

/-- A head entry in range takes the place of one in range. -/
theorem setHead_range (h : Head) (e : HeadEntry) (s : State)
    (he : HeadInRange (s.headEntry h) → HeadInRange e) (hs : PrintInRange s.print) :
    PrintInRange (setHead h e s).print := by
  obtain ⟨ha, hb, hw⟩ := hs
  rw [setHead_print]
  cases h
  · exact ⟨he ha, hb, hw⟩
  · exact ⟨ha, he hb, hw⟩

theorem setHead_keeps (B : Keeps R) (h : Head) (e : HeadEntry) (s : State)
    (he : HeadInRange (s.headEntry h) → HeadInRange e) : R s (setHead h e s) :=
  B.units (by simp) (by simp) (by simp) (by simp) (by simp) { print := setHead_range h e s he }

theorem swappedOut_range (p : Profile) (e : HeadEntry) (h : HeadInRange e) :
    HeadInRange (swappedOut p e) := by
  unfold swappedOut HeadInRange at *; split
  · exact ⟨by simp; omega, by simp⟩
  · exact ⟨h.1, by simp⟩

theorem swapHead_keeps (B : Keeps R) (p : Profile) (h : Head) (s : State) :
    R s (swapHead p h s) := by
  unfold swapHead
  refine B.trans ?_ (B.applyIf fun _ => raiseStop_keeps B _ _)
  refine B.trans ?_ (B.link (bump_frame _ _))
  refine B.trans ?_ (B.link (raise_frame _ _))
  refine B.trans ?_ (refreshHolds_keeps B _)
  refine B.trans ?_ (B.applyIf fun _ => setHead_keeps B _ _ _ fun k => k)
  refine B.trans ?_ (B.applyIf fun _ => B.link (bump_frame _ _))
  exact setHead_keeps B _ _ s (swappedOut_range p _)

theorem endPurge_keeps (B : Keeps R) (h : Head) (s : State) : R s (endPurge h s) := by
  unfold endPurge
  refine B.trans ?_ (B.link (raise_frame _ _))
  refine B.trans ?_ (refreshHolds_keeps B _)
  exact setHead_keeps B h _ s fun k => k

end
end Sys2Proof.Machine
end

section
/-! The parts of a pitch event but its fill, taken apart for any relation that the primitive changes keep. -/

namespace Sys2Proof.Machine

/-- A LIVE pocket becomes whatever keeps its serial. -/
theorem Pocket.becomes_of_live {k q : Pocket} (hl : k.state = .live) (hq : q.serial = k.serial) :
    k.Becomes q := ⟨hq, fun h => by simp [Pocket.isGap, hl] at h⟩

section
variable {R : State → State → Prop}

/-! ## Stations, PRINT and VERIFY -/

theorem stationArrival_keeps (B : Keeps R) (p : Profile) (n : Fin 12) (s : State) :
    R s (stationArrival p n s) := by
  unfold stationArrival
  simp only []
  split
  · exact B.refl s
  · split
    · exact B.refl s
    · next i k hk =>
      obtain ⟨-, hk⟩ := pocketThere_some hk
      split
      · split
        · refine B.trans ?_ (B.link (send_frame _ _))
          exact B.pocket _ s hk ⟨rfl, fun h => h⟩
        · exact B.link (send_frame _ _)
      · split
        · exact updatePocketContext_keeps B _ _ s
        · exact B.refl s
      · split
        · exact B.pocket _ s hk ⟨rfl, fun h => h⟩
        · exact B.refl s
      · exact B.refl s

/-- Only the read-back list of the Print and Read-Back Unit changes. -/
theorem readBacks_keeps (B : Keeps R) (l : List ReadBack) (s : State) :
    R s { s with print := { s.print with readBacks := l } } :=
  B.units rfl rfl rfl rfl rfl { print := fun h => h }

theorem printArrival_keeps (B : Keeps R) (p : Profile) (t : Track) (s : State) :
    R s (printArrival p t s) := by
  unfold printArrival
  split
  · split
    · exact B.refl s
    · next i k hk =>
      obtain ⟨-, hk⟩ := pocketThere_some hk
      split
      · exact B.refl s
      · refine B.trans ?_ (B.link (bump_frame _ _))
        refine B.trans ?_ (B.link (send_frame _ _))
        exact B.trans (readBacks_keeps B _ s) (B.pocket _ _ hk ⟨rfl, fun h => h⟩)
      · exact B.trans (B.link (bump_frame _ _)) (handFault_keeps B _ _ _ _ _)
  · exact B.refl s

theorem dropReadBack_keeps (B : Keeps R) {i : Nat} {k : Pocket} {s : State}
    (hk : s.track.pocketAt i = some k) : R s (dropReadBack i k s) := by
  unfold dropReadBack
  exact B.trans (readBacks_keeps B _ s) (B.pocket _ _ hk ⟨rfl, fun h => h⟩)

theorem verifyArrival_keeps (B : Keeps R) (p : Profile) (t : Track) (s : State) :
    R s (verifyArrival p t s) := by
  unfold verifyArrival
  split
  · exact B.refl s
  · next i k hk =>
    obtain ⟨-, hk⟩ := pocketThere_some hk
    split
    · split
      · exact B.link (send_frame _ _)
      · exact dropReadBack_keeps B hk
      · exact B.refl s
    · exact B.refl s

/-! ## GAUGE -/

theorem setGauge_keeps (B : Keeps R) (g : Gauge) (s : State)
    (h : GaugeInRange s.gauge → GaugeInRange g) : R s (setGauge g s) :=
  B.units (by simp) (by simp) (by simp) (by simp) (by simp) { gauge := by simpa using h }

/-- The zero goes towards the reading and not past it (R97). -/
theorem zeroAfter_le {z reading : Nat} (hz : z ≤ 65520) (hr : reading ≤ 4095) :
    zeroAfter z reading ≤ 65520 := by
  unfold zeroAfter; split <;> omega

theorem trackZero_keeps (B : Keeps R) {reading : Nat} (hr : reading ≤ 4095) (s : State) :
    R s (trackZero reading s) :=
  B.trans (B.link (bump_frame .zeroUpdates s))
    (setGauge_keeps B _ _ fun h => ⟨zeroAfter_le h.1 hr, h.2⟩)

theorem driftCheck_keeps (B : Keeps R) (p : Profile) (s : State) : R s (driftCheck p s) := by
  unfold driftCheck; split
  · refine B.trans ?_ (B.link (bump_frame _ _))
    refine B.trans ?_ (B.link (raise_frame _ _))
    exact setGauge_keeps B _ s fun h => h
  · exact B.refl s

theorem calibrationReading_keeps (B : Keeps R) {reading : Nat} (hr : reading ≤ 4095) (s : State) :
    R s (calibrationReading reading s) :=
  B.trans (B.link (bump_frame .zeroUpdates s))
    (setGauge_keeps B _ _ fun _ => ⟨by simp only; omega, by simp only; omega⟩)

theorem classify_keeps (B : Keeps R) (p : Profile) (r : Nat) {i : Nat} {k : Pocket} {s : State}
    (hk : s.track.pocketAt i = some k) : R s (classify p r i k s) := by
  unfold classify
  simp only []
  refine B.trans (B.pocket { k with thickness := some (thicknessOf r s.gauge.z16 p.scale) } s hk
    ⟨rfl, fun h => h⟩) ?_
  split
  · exact B.link (bump_frame _ _)
  · exact B.trans (B.link (bump_frame _ _)) (handFault_keeps B _ _ _ _ _)
  · exact B.trans (B.link (bump_frame _ _)) (handFault_keeps B _ _ _ _ _)

theorem gaugeArrival_keeps (B : Keeps R) (p : Profile) (t : Track) {reading : Nat}
    (hr : reading ≤ 4095) (s : State) : R s (gaugeArrival p t reading s) := by
  unfold gaugeArrival
  split
  · exact B.refl s
  · next i k hk =>
    obtain ⟨-, hk⟩ := pocketThere_some hk
    split
    · split
      · exact B.trans (trackZero_keeps B hr s) (driftCheck_keeps B p _)
      · exact trackZero_keeps B hr s
      · exact calibrationReading_keeps B hr s
      · exact B.refl s
    · split
      · split
        · exact classify_keeps B p reading hk
        · exact B.trans (B.link (bump_frame _ _)) (updateLatestContext_keeps B _ _ _)
      · exact B.refl s

/-! ## Film and SEAL -/

theorem sealArrival_keeps (B : Keeps R) (p : Profile) (t : Track) (b : Bool) (s : State) :
    R s (sealArrival p t b s) := by
  have faults (i : Nat) (d : LineCounter) (c : FaultCause) (u : State) :
      R u (handFault i c none false (bump d u)) :=
    B.trans (B.link (bump_frame d u)) (handFault_keeps B i c none false _)
  unfold sealArrival
  split
  · exact B.trans (B.applyIf fun _ => faults _ _ _ _) (B.applyIf fun _ => faults _ _ _ _)
  · exact B.refl s

theorem moveFilmRun_keeps (B : Keeps R) (p : Profile) (b : Bool) (s : State) :
    R s (moveFilmRun p b s) := by
  unfold moveFilmRun
  split
  · exact B.units rfl rfl rfl rfl rfl { wrap := fun h => ⟨h.1, by simp⟩, clear := fun h => h }
  · refine B.trans (t := { s with wrap := { s.wrap with run := min 15 (s.wrap.run + 1) } })
      (B.units rfl rfl rfl rfl rfl { wrap := fun h => ⟨h.1, by simp⟩, clear := fun h => h })
      (B.applyIf fun _ => ?_)
    exact B.trans (B.link (bump_frame .filmStops _)) (raiseStop_keeps B _ _)

/-- The film count begins anew, with the runaway mark clear (R124, R127). -/
theorem clearFilm_keeps (B : Keeps R) (s : State) :
    R s { s with wrap := { s.wrap with film := 0, runaway := false } } :=
  B.units rfl rfl rfl rfl rfl
    { wrap := fun h => ⟨by simp, h.2⟩, clear := fun _ => ⟨rfl, rfl⟩ }

theorem wrapPart_keeps (B : Keeps R) (p : Profile) (t : Track) (s : State) :
    R s (wrapPart p t s) := by
  unfold wrapPart
  refine B.trans ?_ (moveFilmRun_keeps B _ _ _)
  refine B.trans ?_ (sealArrival_keeps B _ _ _ _)
  exact B.trans (clearFilm_keeps B s) (B.applyIf fun _ => B.link (bump_frame _ _))

/-! ## REJECT, the last position and the purges -/

theorem gateFold_keeps (B : Keeps R) (i : Nat) (l : List (FaultCause × Option (Fin 12)))
    (s : State) :
    R s (l.foldl (fun t f => handFault i f.1 f.2 false (bump .gateFaults t)) s) :=
  B.foldl _ (fun _ _ => B.trans (B.link (bump_frame _ _)) (handFault_keeps B _ _ _ _ _)) l s

theorem gateFaults_keeps (B : Keeps R) (i : Nat) (k : Pocket) (s : State) :
    R s (gateFaults i k s) := by
  unfold gateFaults
  simp only []
  refine B.trans (gateFold_keeps B i (pendingFaults k) s) ?_
  split
  · exact B.refl _
  · next q hq =>
    unfold applyIf
    split
    · exact B.trans (dropReadBack_keeps B hq)
        (B.pocket _ _ (dropReadBack_there hq) ⟨rfl, fun h => h⟩)
    · exact B.pocket _ _ hq ⟨rfl, fun h => h⟩

theorem setGate_keeps (B : Keeps R) (i : Nat) (s : State) : R s (setGate i s) := by
  unfold setGate
  split
  · exact B.refl s
  · next k hk =>
    split
    · next hf =>
      refine B.trans ?_ (B.link (bump_frame .diverts _))
      refine B.trans (B.pocket { k with state := .diverted } s hk
        ⟨rfl, fun h => by simp [Pocket.isGap, hf] at h⟩) ?_
      exact B.same rfl rfl rfl rfl rfl rfl rfl rfl rfl rfl
    · exact B.same rfl rfl rfl rfl rfl rfl rfl rfl rfl rfl
    · exact B.same rfl rfl rfl rfl rfl rfl rfl rfl rfl rfl
    · exact B.refl s

theorem rejectArrival_keeps (B : Keeps R) (p : Profile) (s : State) : R s (rejectArrival p s) := by
  unfold rejectArrival; split
  · exact B.refl s
  · exact B.trans (gateFaults_keeps B _ _ s) (setGate_keeps B _ _)

theorem deliver_keeps (B : Keeps R) {i : Nat} {k : Pocket} (j : Nat) (c : Context) {s : State}
    (hk : s.track.pocketAt i = some k) (hl : k.state = .live) : R s (deliver i k j c s) := by
  have put (d : StackerCommand) :
      R s (setPocket i { k with state := .delivered } (issueCommand d s)) :=
    B.trans (issueCommand_keeps B d s)
      (B.pocket _ _ (by simpa using hk) (Pocket.becomes_of_live hl rfl))
  unfold deliver
  split
  · refine B.trans ?_ (resolutionTest_keeps B _ _ _)
    refine B.trans ?_ (B.frees _ _)
    refine B.trans ?_ (writeOutcome_keeps B _ _ _ _ _)
    exact B.trans (put .stack) (updateBundle_keeps B _ _ _)
  · refine B.trans ?_ (B.frees _ _)
    exact B.trans (put .oosExit) (writeOutcome_keeps B _ _ _ _ _)

theorem lastArrival_keeps (B : Keeps R) (p : Profile) (s : State) : R s (lastArrival p s) := by
  unfold lastArrival
  split
  · exact B.refl s
  · next i k hk =>
    obtain ⟨-, hk⟩ := pocketThere_some hk
    split
    · next hl =>
      split
      · exact B.refl s
      · exact deliver_keeps B _ _ hk hl
    · exact B.refl s

theorem spitHead_keeps (B : Keeps R) (h : Head) (s : State) : R s (spitHead h s) := by
  unfold spitHead
  simp only []
  split
  · have sent : R s (send (.spit h) (setHead h { s.headEntry h with
        countdown := (s.headEntry h).countdown - 1 } s)) := by
      refine B.trans ?_ (B.link (send_frame _ _))
      exact setHead_keeps B h _ s fun k => k
    split
    · exact B.trans sent (endPurge_keeps B h _)
    · exact sent
  · exact B.refl s

/-- Each part of a pitch event but the fill. -/
theorem takePart_keeps (B : Keeps R) (p : Profile) (t : Track) {reading : Nat}
    (hr : reading ≤ 4095) (s : State) {x : PitchPart} (hx : x ≠ .fill) :
    R s (takePart p t reading s x) := by
  cases x with
  | fill => exact absurd rfl hx
  | station n => exact stationArrival_keeps B p n s
  | print => exact printArrival_keeps B p t s
  | verify => exact verifyArrival_keeps B p t s
  | gauge => exact gaugeArrival_keeps B p t hr s
  | wrap => exact wrapPart_keeps B p t s
  | reject => exact rejectArrival_keeps B p s
  | last => exact lastArrival_keeps B p s
  | purge h => exact spitHead_keeps B h s

theorem takeParts_keeps (B : Keeps R) (p : Profile) (t : Track) {reading : Nat}
    (hr : reading ≤ 4095) (l : List PitchPart) (hl : .fill ∉ l) (s : State) :
    R s (l.foldl (takePart p t reading) s) := by
  induction l generalizing s with
  | nil => exact B.refl s
  | cons x l ih =>
    simp only [List.mem_cons, not_or] at hl
    exact B.trans (takePart_keeps B p t hr s (Ne.symm hl.1)) (ih hl.2 _)

end
end Sys2Proof.Machine
end

section
/-! The relation that every operation behind a command keeps, but for the counts, the fill of a pitch
event, and the begin and the end of a job. -/

namespace Sys2Proof.Machine

/-- The profile stays, the line stays in or out of IDLE, the encoder's counts and the place of the table
stay, every pocket stands where it stood, a GAP stays a GAP, and the units' counts stay in their ranges. -/
structure Steady (s t : State) : Prop where
  profile : t.profile = s.profile
  idle : t.line.state = .idle ↔ s.line.state = .idle
  chain : SameChain s t
  serials : ∀ i, (t.track.pocketAt i).map (·.serial) = (s.track.pocketAt i).map (·.serial)
  gaps : ∀ i k, s.track.pocketAt i = some k → k.isGap → ∃ q, t.track.pocketAt i = some q ∧ q.isGap
  units : UnitsKept s t

theorem Steady.trans {s t u : State} (h : Steady s t) (k : Steady t u) : Steady s u where
  profile := k.profile.trans h.profile
  idle := k.idle.trans h.idle
  chain := by
    obtain ⟨a, b, c, d, e⟩ := h.chain
    obtain ⟨a', b', c', d', e'⟩ := k.chain
    exact ⟨a'.trans a, b'.trans b, c'.trans c, d'.trans d, e'.trans e⟩
  serials i := (k.serials i).trans (h.serials i)
  gaps i q hq hg := by
    obtain ⟨r, hr, hg⟩ := h.gaps i q hq hg
    exact k.gaps i r hr hg
  units := h.units.trans k.units

theorem Steady.deficit {s t : State} (h : Steady s t) : t.track.deficit = s.track.deficit := by
  obtain ⟨-, hd, -⟩ := h.chain
  exact hd

theorem Steady.base {s t : State} (h : Steady s t) : t.track.base = s.track.base := by
  obtain ⟨-, -, -, hb, -⟩ := h.chain
  exact hb

/-- The pockets stand where they stood (R23). -/
theorem Steady.pockets {s t : State} (h : Steady s t) : SamePockets s t := fun i => h.serials i.val

/-- An operation that leaves the profile, the table and the line record. -/
theorem Steady.of_units {s t : State} (hp : t.profile = s.profile) (ht : t.track = s.track)
    (hl : t.line.state = .idle ↔ s.line.state = .idle) (hu : UnitsKept s t) : Steady s t where
  profile := hp
  idle := hl
  chain := by rw [SameChain, ht]; exact ⟨rfl, rfl, rfl, rfl, rfl⟩
  serials i := by rw [ht]
  gaps i k hk hg := ⟨k, by rw [ht]; exact hk, hg⟩
  units := hu

/-- A change of the line record that does not cross IDLE. -/
theorem setLine_steady (l : Line) (s : State) (h : l.state = .idle ↔ s.line.state = .idle) :
    Steady s (setLine l s) :=
  .of_units (by simp) (by simp) (by simpa using h) (setLine_units l s)

/-- An operation that changes one pocket's record and leaves it the same pocket. -/
theorem setPocket_steady {i : Nat} {k : Pocket} (q : Pocket) (s : State)
    (hk : s.track.pocketAt i = some k) (hq : k.Becomes q) : Steady s (setPocket i q s) where
  profile := rfl
  idle := Iff.rfl
  chain := ⟨rfl, rfl, rfl, rfl, rfl⟩
  serials j := by
    by_cases h : j = i
    · rw [h, setPocket_there hk, hk]; exact congrArg some hq.1
    · rw [setPocket_elsewhere h]
  gaps j r hr hg := by
    by_cases h : j = i
    · subst h
      rw [hk] at hr; cases hr
      exact ⟨q, setPocket_there hk q, hq.2 hg⟩
    · exact ⟨r, by rw [setPocket_elsewhere h]; exact hr, hg⟩
  units := .of_same rfl rfl rfl rfl rfl

theorem freeContext_steady (i : Nat) (s : State) : Steady s (freeContext i s) where
  profile := rfl
  idle := Iff.rfl
  chain := ⟨rfl, rfl, rfl, rfl, rfl⟩
  serials j := by
    rw [freeContext_at]
    cases s.track.pocketAt j with
    | none => rfl
    | some k => simp only [Option.map_some, Pocket.dropReference]; split <;> rfl
  gaps j k hk hg := by
    refine ⟨k.dropReference i, by rw [freeContext_at, hk]; rfl, ?_⟩
    obtain ⟨h1, h2, h3⟩ := hg
    unfold Pocket.dropReference
    split
    · exact ⟨h1, h2, rfl⟩
    · exact ⟨h1, h2, h3⟩
  units := .of_same rfl rfl rfl rfl rfl

/-- Faults, stop causes and the parts of a pitch event are steady. -/
theorem keeps_steady : Keeps Steady where
  trans := .trans
  units := fun hp _ ht _ hl hu => .of_units hp ht (by rw [hl]) hu
  stops := fun l s hs hl => setLine_steady l s ⟨fun h => absurd h hl, fun h => by simp [h] at hs⟩
  pocket := fun q s hk hq => setPocket_steady q s hk hq
  frees := freeContext_steady
  queues := fun _ _ => .of_units rfl rfl Iff.rfl (.of_same rfl rfl rfl rfl rfl)

theorem Steady.refl (s : State) : Steady s s := keeps_steady.refl s

theorem Steady.of_link {s t : State} (h : SameButLink t s) : Steady s t := keeps_steady.link h

/-- Nothing that Steady looks at has changed. -/
theorem Steady.of_same {s t : State} (hp : t.profile = s.profile) (ht : t.track = s.track)
    (hl : t.line = s.line) (hw : t.wrap = s.wrap) (hu : t.print = s.print)
    (hv : t.stations = s.stations) (hi : t.intake.window = s.intake.window)
    (hg : t.gauge = s.gauge) : Steady s t :=
  .of_units hp ht (by rw [hl]) (.of_same hw hu hv hi hg)

/-! ## What is kept of a job -/

/-- A steady operation keeps the job in range. -/
theorem Steady.keepsJob {s t : State} (h : Steady s t) (hp : ProfileLoaded s) (ht : TrackFull s)
    (hc : CountsInRange s) : ProfileLoaded t ∧ TrackFull t ∧ CountsInRange t := by
  obtain ⟨hacc, hdef, -, hbase, -⟩ := h.chain
  have hsome (i : Fin 128) : (t.track.entries.get i).isSome = (s.track.entries.get i).isSome := by
    have := congrArg Option.isSome (h.serials i.val)
    simpa [Track.pocketAt_get] using this
  refine ⟨?_, ?_, ?_⟩
  · unfold ProfileLoaded at *
    rw [h.profile]
    split at hp
    · exact h.idle.mpr hp
    · exact ⟨fun k => hp.1 (h.idle.mp k), hp.2⟩
  · unfold TrackFull at *
    rw [h.profile, hbase]
    split at ht
    · exact fun i => Option.not_isSome_iff_eq_none.mp (by rw [hsome i, ht i]; simp)
    · exact ⟨ht.1, fun i => by rw [hsome i, ht.2 i]⟩
  · rw [countsInRange_iff] at *
    obtain ⟨ha, hd, hw, hu, hv, hi, hg⟩ := hc
    refine ⟨?_, ?_, h.units.wrap hw, h.units.print hu, h.units.stations hv, h.units.window hi,
      h.units.gauge hg⟩
    · rw [h.profile, hacc]; exact ha
    · rw [hdef]; exact hd

/-! ## Halts and the end of the file -/

theorem refreshHolds_steady (s : State) : Steady s (refreshHolds s) := refreshHolds_keeps keeps_steady s

theorem settle_steady (s : State) : Steady s (settle s) := settle_keeps keeps_steady s

theorem changeLine_steady (l : Line) (s : State) (h : l.state = .idle ↔ s.line.state = .idle) :
    Steady s (changeLine l s) :=
  (setLine_steady l s h).trans ((refreshHolds_steady _).trans
    (keeps_steady.applyIf fun _ => .of_link (raise_frame _ _)))

theorem markSuspect_steady (p : Profile) (s : State) (n : Nat) : Steady s (markSuspect p s n) := by
  unfold markSuspect
  simp only []
  split
  · exact .refl s
  · split
    · exact (Steady.of_link (bump_frame .suspectFaults s)).trans
        (handFault_keeps keeps_steady _ _ _ _ _)
    · exact .refl s

theorem suspectMarking_steady (s : State) : Steady s (suspectMarking s) := by
  unfold suspectMarking; split
  · exact .refl s
  · exact keeps_steady.foldl _ (markSuspect_steady _) _ s

/-- The verify window is emptied (R120). -/
theorem emptyWindow_steady (s : State) : Steady s { s with print := { s.print with window := [] } } :=
  .of_units rfl rfl Iff.rfl { print := fun h => ⟨h.1, h.2.1, by simp⟩ }

theorem haltEntry_steady (c : HaltCause) (s : State) (h : s.line.state ≠ .idle) :
    Steady s (haltEntry c s) := by
  unfold haltEntry
  refine Steady.trans ?_ (settle_steady _)
  refine Steady.trans ?_ (.of_link (raise_frame _ _))
  refine Steady.trans ?_ (.of_link (raise_frame _ _))
  refine Steady.trans ?_ (emptyWindow_steady _)
  refine Steady.trans ?_ (suspectMarking_steady _)
  refine Steady.trans ?_ (refreshHolds_steady _)
  exact (Steady.of_link (bump_frame .halts s)).trans (setLine_steady _ _ (by simpa using h))

theorem raiseHalt_steady (c : HaltCause) (s : State) : Steady s (raiseHalt c s) := by
  unfold raiseHalt; split
  · exact .refl s
  · exact .refl s
  · next h _ =>
    split
    · exact .refl s
    · exact haltEntry_steady c s h

theorem takeFileEnd_steady (s : State) : Steady s (takeFileEnd s) := by
  unfold takeFileEnd; split
  · next h =>
    exact (changeLine_keeps keeps_steady _ s (.inl h) (by simp)).trans
      (completionTest_keeps keeps_steady _)
  · exact .of_units rfl rfl Iff.rfl (.of_same rfl rfl rfl rfl rfl)

theorem fileEndTest_steady (s : State) : Steady s (fileEndTest s) := by
  unfold fileEndTest; split
  · exact takeFileEnd_steady s
  · exact .refl s

/-! ## Stations -/

/-- A station entry in range takes the place of one in range. -/
theorem setStation_steady (n : Fin 12) (e : Station) (s : State)
    (h : StationInRange (s.stations.get n) → StationInRange e) : Steady s (setStation n e s) := by
  refine .of_units (by simp) (by simp) (by simp) { stations := fun hs m => ?_ }
  rw [setStation_stations, Vector.get_eq_getElem]
  by_cases hm : n.val = m.val
  · obtain rfl : n = m := Fin.ext hm
    simpa using h (hs n)
  · have := hs m
    rw [Vector.get_eq_getElem] at this
    simpa [hm] using this

theorem stationFault_steady (n : Fin 12) (c : StationCause) (s : State) :
    Steady s (stationFault n c s) := by
  unfold stationFault
  simp only []
  split
  · refine Steady.trans ?_ (.of_link (raise_frame _ _))
    exact (Steady.of_link (bump_frame .stationFaults s)).trans
      (setStation_steady n _ _ fun _ => ⟨by simp, by simp⟩)
  · refine Steady.trans ?_ (raiseStop_keeps keeps_steady _ _)
    refine Steady.trans ?_ (.of_link (raise_frame _ _))
    refine (Steady.of_link (bump_frame .stationFaults s)).trans (setStation_steady n _ _ fun h => ?_)
    exact h

/-! ## The end of a request -/

theorem completeRequest_steady (r : RequestResult) (w : Word) (s : State) :
    Steady s (completeRequest r w s) :=
  .of_same (by simp) (by simp) (by simp) (by simp) (by simp) (by simp) (by simp) (by simp)

theorem finish_steady (r : RequestResult) (w : Word) (s : State) : Steady s (finish r w s) :=
  (settle_steady s).trans (completeRequest_steady _ _ _)

theorem finishCode_steady (r : RequestResult) (n : Nat) (s : State) : Steady s (finishCode r n s) :=
  finish_steady _ _ _

theorem finishFree_steady (r : RequestResult) (s : State) : Steady s (finishFree r s) :=
  Steady.trans (t := { s with freeCount := s.freeCount + 1 })
    (.of_same rfl rfl rfl rfl rfl rfl rfl rfl) (finish_steady _ _ _)

/-! ## The Page Fetcher -/

/-- Nothing but the Staging Queue changes. -/
theorem stagingOnly_steady (s : State) (l : List Staged) : Steady s { s with staging := l } :=
  .of_same rfl rfl rfl rfl rfl rfl rfl rfl

theorem takeRecord_steady (p : Profile) (n k : Nat) (pos : FilePosition) (r : RecordFields)
    (s : State) : Steady s (takeRecord p n k pos r s) := by
  unfold takeRecord; split
  · exact writeOutcome_keeps keeps_steady _ _ _ _ s
  · refine Steady.trans ?_ (refreshHolds_steady _)
    refine Steady.trans ?_ (stagingOnly_steady _ _)
    exact keeps_steady.applyIf fun _ => keeps_steady.fetcher (updatePage_frame n _ s)

theorem takeRecords_steady (p : Profile) (n k : Nat) (pos : FilePosition) (l : List RecordFields)
    (s : State) : Steady s (takeRecords p n k pos l s) := by
  induction l generalizing k pos s with
  | nil => exact .refl s
  | cons r l ih => exact (takeRecord_steady p n k pos r s).trans (ih _ _ _)

/-- Nothing but the fetcher's own record changes. -/
theorem fetcherOnly_steady (s : State) (f : Fetcher) : Steady s { s with fetcher := f } :=
  .of_same rfl rfl rfl rfl rfl rfl rfl rfl

theorem refusePage_steady (a : Address) (h : PageHeader) (c : RefusalCause) (i : Nat) (s : State) :
    Steady s (refusePage a h c i s) := keeps_steady.fetcher (refusePage_frame a h c i s)

theorem setFetch_steady (f : FetchState) (s : State) : Steady s (setFetch f s) :=
  keeps_steady.fetcher (setFetch_frame f s)

/-- The fetch state after an accepted page, an END page released first (R35, R45). -/
theorem leaveFetch_steady (b : Bool) (s : State) : Steady s (if b then
      setFetch .ended (releaseTail none { s with fetcher := { s.fetcher with endSeen := true } })
    else setFetch .waiting s) := by
  split
  · refine Steady.trans ?_ (setFetch_steady _ _)
    exact (fetcherOnly_steady s _).trans (releaseTail_keeps keeps_steady _ _)
  · exact setFetch_steady _ s

theorem acceptPage_steady (p : Profile) (a : Address) (h : PageHeader) (l : List RecordFields)
    (pos : FilePosition) (s : State) : Steady s (acceptPage p a h l pos s) := by
  unfold acceptPage
  simp only []
  refine Steady.trans ?_ (.of_link (bump_frame _ _))
  refine Steady.trans ?_ (fileEndTest_steady _)
  refine Steady.trans ?_ (.of_link (writeOpenCount_frame _))
  refine Steady.trans ?_ (leaveFetch_steady h.ends _)
  refine Steady.trans ?_ (fetcherOnly_steady _ _)
  refine Steady.trans ?_ (releaseTail_keeps keeps_steady _ _)
  refine Steady.trans ?_ (fetcherOnly_steady _ _)
  refine Steady.trans ?_ (takeRecords_steady _ _ _ _ _ _)
  exact (Steady.of_link (writeHeader_frame _ _ _ _ s)).trans (fetcherOnly_steady _ _)

theorem withdrawBundle_steady (p : Profile) (o n : Nat) (s : State) :
    Steady s (withdrawBundle p o n s) := by
  unfold withdrawBundle
  refine Steady.trans ?_ (resolutionTest_keeps keeps_steady _ _ _)
  exact (countAndTest_keeps keeps_steady _ _ s).trans (expiryTest_keeps keeps_steady _ _)

theorem breakTail_steady (p : Profile) (s : State) : Steady s (breakTail p s) := by
  unfold breakTail
  split
  · exact .refl s
  · split
    · exact .refl s
    · split
      · exact .refl s
      · simp only []
        split
        · exact stagingOnly_steady s _
        · exact withdrawBundle_steady _ _ _ s

theorem skipHeldPage_steady (p : Profile) (h : HeldPage) (s : State) :
    Steady s (skipHeldPage p h s) := by
  unfold skipHeldPage
  simp only []
  refine Steady.trans ?_ (finishCode_steady _ _ _)
  refine Steady.trans ?_ (.of_link (bump_frame _ _))
  have released : Steady s (releaseTail none { breakTail p (skipRecords h s) with
      fetcher := { (breakTail p (skipRecords h s)).fetcher with
        orphan := true, expected := (breakTail p (skipRecords h s)).fetcher.expected + 1,
        skippedSince := true } }) := by
    refine Steady.trans ?_ (releaseTail_keeps keeps_steady _ _)
    refine Steady.trans ?_ (fetcherOnly_steady _ _)
    exact (Steady.of_link (skipRecords_frame h s)).trans (breakTail_steady p _)
  split
  · refine Steady.trans ?_ (fileEndTest_steady _)
    refine Steady.trans ?_ (setFetch_steady _ _)
    refine Steady.trans ?_ (releaseSkipped_keeps keeps_steady _)
    exact released.trans ((fetcherOnly_steady _ _).trans (fetcherOnly_steady _ _))
  · exact released.trans ((fetcherOnly_steady _ _).trans (setFetch_steady _ _))

theorem serveSkip_steady (p : Profile) (s : State) : Steady s (serveSkip p s) := by
  unfold serveSkip; split
  · split
    · exact skipHeldPage_steady _ _ s
    · exact finishFree_steady _ s
  · exact finishFree_steady _ s

theorem setPhase_steady (f : Phase) (s : State) : Steady s (setPhase f s) :=
  .of_same rfl rfl rfl rfl rfl rfl rfl rfl

theorem retryAddress_steady (p : Profile) (a : Address) (s : State) :
    Steady s (retryAddress p a s) := by
  unfold retryAddress
  refine Steady.trans (keeps_steady.fetcher (beginFetch_frame p a s)) ?_
  simp only []
  split
  · exact finishCode_steady _ _ _
  · exact setPhase_steady _ _

theorem serveRetry_steady (p : Profile) (s : State) : Steady s (serveRetry p s) := by
  unfold serveRetry; split
  · split
    · exact retryAddress_steady _ _ s
    · exact (Steady.of_link (readLink_frame s)).trans (setPhase_steady _ _)
  · exact finishFree_steady _ s

theorem afterFetch_steady (p : Profile) (s : State) : Steady s (afterFetch p s) := by
  unfold afterFetch; split
  · exact .refl s
  · split
    · exact finishCode_steady _ _ s
    · split
      · exact serveSkip_steady p s
      · exact serveRetry_steady p s
    · exact .refl s

/-! ## Failure of host memory access -/

theorem failRequest_steady (s : State) : Steady s (failRequest s) := by
  unfold failRequest; split
  · exact .refl s
  · split
    · exact .refl s
    · exact .of_same rfl rfl rfl rfl rfl rfl rfl rfl
    · exact finishFree_steady _ s

theorem accessFailure_steady (s : State) : Steady s (accessFailure s) := by
  unfold accessFailure
  simp only []
  split
  · exact .refl s
  · refine Steady.trans ?_ (settle_steady _)
    refine Steady.trans ?_ (failRequest_steady _)
    refine Steady.trans ?_ (.of_link (raise_frame _ _))
    refine Steady.trans ?_ (raiseHalt_steady _ _)
    refine Steady.trans (t := stopAccess s) (.of_same rfl rfl rfl rfl rfl rfl rfl rfl) ?_
    exact .of_link (releaseAttention_frame _ _)

end Sys2Proof.Machine
end

section
/-! The pitch event on the table: the step of R7, the one fill, and the parts around it. -/

namespace Sys2Proof.Machine

/-! ## The step of the table -/

/-- Stepping base back within a table of `len` entries (R7). -/
theorem base_back {base len : Nat} (h : base < len) :
    (base + len - 1) % len < len ∧ ((base + len - 1) % len + 1) % len = base := by
  have hpos : 0 < len := by omega
  refine ⟨Nat.mod_lt _ hpos, ?_⟩
  rcases Nat.eq_zero_or_pos base with rfl | hb
  · rw [Nat.zero_add, Nat.mod_eq_of_lt (a := len - 1) (by omega), Nat.sub_add_cancel hpos,
      Nat.mod_self]
  · rw [show base + len - 1 = base - 1 + len by omega, Nat.add_mod_right,
      Nat.mod_eq_of_lt (a := base - 1) (by omega), Nat.sub_add_cancel hb, Nat.mod_eq_of_lt h]

@[simp] theorem advanceTable_track (p : Profile) (s : State) :
    (advanceTable p s).track.base = (s.track.base + p.trackLen - 1) % p.trackLen ∧
    (advanceTable p s).track.raised = s.track.raised - 1 ∧
    (advanceTable p s).track.nextSerial = s.track.nextSerial ∧
    (advanceTable p s).track.accumulator = s.track.accumulator ∧
    (advanceTable p s).track.deficit = s.track.deficit := ⟨rfl, rfl, rfl, rfl, rfl⟩

/-- The entry of position 0 is left without a record, and every other entry as it was (R7). -/
theorem advanceTable_at (p : Profile) (s : State) (hb : s.track.base < p.trackLen)
    (hl : p.trackLen ≤ 128) (i : Nat) :
    (advanceTable p s).track.pocketAt i =
      if i = (advanceTable p s).track.base then none else s.track.pocketAt i := by
  have hlt := (base_back hb).1
  exact Track.setPocket_at { s.track with base := _, raised := _ } (by omega) none i

/-! ## The fill -/

/-- Position 0 is filled with the next serial, and nothing else that Steady names has changed but for the
GAPs (R8). -/
structure Fills (s t : State) : Prop where
  profile : t.profile = s.profile
  idle : t.line.state = .idle ↔ s.line.state = .idle
  accumulator : t.track.accumulator = s.track.accumulator
  deficit : t.track.deficit = s.track.deficit
  raised : t.track.raised = s.track.raised
  base : t.track.base = s.track.base
  next : t.track.nextSerial = serialAfter s.track.nextSerial
  filled : (t.track.pocketAt s.track.base).map (·.serial) = some s.track.nextSerial
  others : ∀ i, i ≠ s.track.base →
    (t.track.pocketAt i).map (·.serial) = (s.track.pocketAt i).map (·.serial)
  units : UnitsKept s t

theorem Fills.after {s t u : State} (h : Steady s t) (k : Fills t u) : Fills s u := by
  obtain ⟨ha, hd, hr, hb, hn⟩ := h.chain
  exact {
    profile := k.profile.trans h.profile
    idle := k.idle.trans h.idle
    accumulator := k.accumulator.trans ha
    deficit := k.deficit.trans hd
    raised := k.raised.trans hr
    base := k.base.trans hb
    next := by rw [k.next, hn]
    filled := by rw [← hb, k.filled, hn]
    others := fun i hi => by rw [k.others i (by rw [hb]; exact hi), h.serials]
    units := h.units.trans k.units }

theorem Fills.before {s t u : State} (h : Fills s t) (k : Steady t u) : Fills s u := by
  obtain ⟨ha, hd, hr, hb, hn⟩ := k.chain
  exact {
    profile := k.profile.trans h.profile
    idle := k.idle.trans h.idle
    accumulator := ha.trans h.accumulator
    deficit := hd.trans h.deficit
    raised := hr.trans h.raised
    base := hb.trans h.base
    next := hn.trans h.next
    filled := by rw [k.serials, h.filled]
    others := fun i hi => by rw [k.serials, h.others i hi]
    units := h.units.trans k.units }

/-- Position 0 of a table of at most 128 entries is an entry. -/
theorem entryIndex_zero {p : Profile} {s : State} (hb : s.track.base < p.trackLen) :
    entryIndex p 0 s = s.track.base := by
  simp [entryIndex, Nat.mod_eq_of_lt hb]

/-- Position 0 takes the record, and every other entry stays (R8). -/
theorem placePocket_at {p : Profile} {s : State} (hb : s.track.base < p.trackLen)
    (hl : p.trackLen ≤ 128) (k : Pocket) (i : Nat) :
    (placePocket p k s).track.pocketAt i =
      if i = s.track.base then some k else s.track.pocketAt i := by
  have h := setPocket_at (i := entryIndex p 0 s) (by rw [entryIndex_zero hb]; omega) k s i
  rw [entryIndex_zero hb] at h
  unfold placePocket
  rw [entryIndex_zero hb]
  exact h

@[simp] theorem placePocket_track (p : Profile) (k : Pocket) (s : State) :
    (placePocket p k s).track.base = s.track.base ∧
    (placePocket p k s).track.nextSerial = serialAfter s.track.nextSerial ∧
    (placePocket p k s).track.accumulator = s.track.accumulator ∧
    (placePocket p k s).track.deficit = s.track.deficit ∧
    (placePocket p k s).track.raised = s.track.raised := ⟨rfl, rfl, rfl, rfl, rfl⟩

theorem placePocket_fills {p : Profile} {s : State} (hb : s.track.base < p.trackLen)
    (hl : p.trackLen ≤ 128) {k : Pocket} (hk : k.serial = s.track.nextSerial) :
    Fills s (placePocket p k s) where
  profile := rfl
  idle := Iff.rfl
  accumulator := rfl
  deficit := rfl
  raised := rfl
  base := rfl
  next := rfl
  filled := by rw [placePocket_at hb hl, if_pos rfl]; exact congrArg some hk
  others i hi := by rw [placePocket_at hb hl, if_neg hi]
  units := .of_same rfl rfl rfl rfl rfl

theorem feedGap_fills {p : Profile} {s : State} (hb : s.track.base < p.trackLen)
    (hl : p.trackLen ≤ 128) : Fills s (feedGap p s) :=
  (placePocket_fills hb hl rfl).before (.of_link (bump_frame _ _))

theorem feedRemake_fills {p : Profile} {s : State} (hb : s.track.base < p.trackLen)
    (hl : p.trackLen ≤ 128) (r : Remake) (rest : List Remake) :
    Fills s (feedRemake p r rest s) := by
  unfold feedRemake
  simp only []
  refine Fills.before ?_ (.of_link (bump_frame _ _))
  refine Fills.before (t := match contextAt r.context _ with | none => _ | some c => _) ?_
    (.of_same rfl rfl rfl rfl rfl rfl rfl rfl)
  split
  · exact placePocket_fills hb hl rfl
  · exact (placePocket_fills hb hl rfl).before (setContext_keeps keeps_steady _ _ _)

theorem openBundle_steady (r : Staged) (s : State) : Steady s (openBundle r s) := by
  unfold openBundle
  refine Steady.trans ?_ (.of_link (bump_frame _ _))
  refine Steady.trans ?_ (refreshHolds_steady _)
  exact .of_units rfl rfl Iff.rfl { window := fun _ n h => by cases h; omega }

/-- The state in which a record that is fed has left the queue, has its context and is counted in its
bundle, before its pocket is filled (R53, the steps before the last). -/
def stageNew (r : Staged) (rest : List Staged) (i : Nat) (s : State) : State :=
  let u := refreshHolds { s with staging := rest }
  countAndTest r.ordinal (fun b => { b with fed := b.fed + 1 })
    (applyIf (decide (0 < r.size)) (openBundle r)
      (setContext i (some (r.toContext u.track.nextSerial)) u))

/-- The pocket of a record that is fed (R53). -/
def newPocket (r : Staged) (i : Nat) (serial : Word) : Pocket :=
  { freshPocket serial .new with
    subscriber := some { context := i, serial := r.serial }, attempt := some 1, sort := some .inSort }

theorem feedNew_eq (p : Profile) (r : Staged) (rest : List Staged) (i : Nat) (s : State) :
    feedNew p r rest i s = bump .newFed (fileEndTest (placePocket p
      (newPocket r i (stageNew r rest i s).track.nextSerial) (stageNew r rest i s))) := rfl

theorem stageNew_steady (r : Staged) (rest : List Staged) (i : Nat) (s : State) :
    Steady s (stageNew r rest i s) := by
  refine Steady.trans ?_ (countAndTest_keeps keeps_steady r.ordinal _ _)
  refine Steady.trans ?_ (keeps_steady.applyIf fun _ => openBundle_steady r _)
  refine Steady.trans ?_ (setContext_keeps keeps_steady i _ _)
  exact (stagingOnly_steady s rest).trans (refreshHolds_steady _)

theorem feedNew_fills {p : Profile} {s : State} (hb : s.track.base < p.trackLen)
    (hl : p.trackLen ≤ 128) (r : Staged) (rest : List Staged) (i : Nat) :
    Fills s (feedNew p r rest i s) := by
  have staged := stageNew_steady r rest i s
  obtain ⟨-, -, -, hbase, -⟩ := staged.chain
  rw [feedNew_eq]
  refine Fills.before ?_ (.of_link (bump_frame _ _))
  refine Fills.before ?_ (fileEndTest_steady _)
  exact .after staged (placePocket_fills (by rw [hbase]; exact hb) hl rfl)

/-- The fill fills position 0, whatever it feeds (R47). -/
theorem fillIntake_fills {p : Profile} {s : State} (hb : s.track.base < p.trackLen)
    (hl : p.trackLen ≤ 128) : Fills s (fillIntake p s).1 := by
  have gap := feedGap_fills hb hl
  unfold fillIntake
  simp only []
  split
  · exact gap
  · split
    · exact gap
    · split
      · exact feedRemake_fills hb hl _ _
      · split
        · split
          · exact gap
          · exact feedNew_fills hb hl _ _ _
        · exact gap.before (keeps_steady.applyIf fun _ => .of_link (bump_frame _ _))

/-- The tail-window counter rises to 255 at most (R56). -/
theorem updateWindow_keeps {R : State → State → Prop} (B : Keeps R) (o : Option Nat) (s : State) :
    R s (updateWindow o s) := by
  unfold updateWindow; split
  · refine B.units rfl rfl rfl rfl rfl { window := fun _ n h => ?_ }
    have := Option.some.inj h
    split at this <;> omega
  · exact B.refl s

theorem takeFill_fills {p : Profile} {s : State} (hb : s.track.base < p.trackLen)
    (hl : p.trackLen ≤ 128) : Fills s (takeFill p s) :=
  (fillIntake_fills hb hl).before
    ((updateWindow_keeps keeps_steady _ _).trans (expiryTest_keeps keeps_steady p _))

/-! ## The order of the parts -/

theorem mem_firstOfEach (x : PitchPart) (l : List PitchPart) : x ∈ firstOfEach l ↔ x ∈ l := by
  induction l with
  | nil => rfl
  | cons y l ih => by_cases h : x = y <;> simp [firstOfEach, ih, h]

theorem firstOfEach_nodup (l : List PitchPart) : (firstOfEach l).Nodup := by
  induction l with
  | nil => exact List.nodup_nil
  | cons y l ih =>
    rw [firstOfEach, List.nodup_cons]
    exact ⟨by simp, ih.filter _⟩

theorem partOrder_nodup (order : List PitchPart) : (partOrder order).Nodup := firstOfEach_nodup _

theorem mem_partOrder (order : List PitchPart) (x : PitchPart) : x ∈ partOrder order := by
  rw [partOrder, mem_firstOfEach, List.mem_append]
  right
  cases x with
  | station n => revert n; decide
  | purge h => cases h <;> decide
  | _ => decide

/-- The fill comes once, between two runs of parts without it. -/
theorem partOrder_split (order : List PitchPart) : ∃ front back : List PitchPart,
    partOrder order = front ++ .fill :: back ∧ .fill ∉ front ∧ .fill ∉ back := by
  obtain ⟨front, back, h⟩ := List.append_of_mem (mem_partOrder order .fill)
  have hn := partOrder_nodup order
  rw [h, List.nodup_append, List.nodup_cons] at hn
  obtain ⟨-, ⟨hback, -⟩, hdis⟩ := hn
  exact ⟨front, back, h, fun m => hdis .fill m .fill (by simp) rfl, hback⟩

/-! ## The whole event -/

/-- The parts of a pitch event, taken on the table as it was stepped, fill position 0 once. -/
theorem takeParts_fills {p : Profile} (t : Track) {reading : Nat} (hr : reading ≤ 4095)
    (order : List PitchPart) {s : State} (hb : s.track.base < p.trackLen) (hl : p.trackLen ≤ 128) :
    Fills s ((partOrder order).foldl (takePart p t reading) s) := by
  obtain ⟨front, back, h, hf, hk⟩ := partOrder_split order
  have before := takeParts_keeps keeps_steady p t hr front hf s
  have hbase : (front.foldl (takePart p t reading) s).track.base < p.trackLen := by
    obtain ⟨-, -, -, e, -⟩ := before.chain
    rw [e]; exact hb
  rw [h, List.foldl_append, List.foldl_cons]
  exact (Fills.after before (takeFill_fills hbase hl)).before
    (takeParts_keeps keeps_steady p t hr back hk _)

/-- A pitch event taken fills position 0 of the table that it has stepped (R7, R8). -/
theorem takePitch_fills {p : Profile} (reading : BitVec 12) (order : List PitchPart) {s : State}
    (hb : s.track.base < p.trackLen) (hl : p.trackLen ≤ 128) :
    Fills (bump .pitches (advanceTable p s)) (takePitch p reading order s) := by
  have hr : reading.toNat ≤ 4095 := by have := reading.isLt; omega
  refine Fills.before ?_ (settle_steady _)
  refine Fills.before ?_ (drainEndTest_keeps keeps_steady _)
  exact takeParts_fills _ hr order (base_back hb).1 hl

end Sys2Proof.Machine
end

section
/-! The end and the begin of a job: what ABORT_JOB and the two resets leave (R46, R180, R192), and what
LOAD_JOB initialises (R171). -/

namespace Sys2Proof.Machine

/-- A projection that each step of a fold keeps, the fold keeps. -/
theorem foldl_proj {α β : Type} (g : State → β) (f : State → α → State)
    (h : ∀ u a, g (f u a) = g u) (l : List α) (s : State) : g (l.foldl f s) = g s := by
  induction l generalizing s with
  | nil => rfl
  | cons a l ih => rw [List.foldl_cons, ih, h]

/-! ## The chain of R46 -/

/-- The fetch state and the fetch going on are the same. -/
def SameFetch (s t : State) : Prop :=
  t.fetcher.state = s.fetcher.state ∧ t.fetcher.fetch = s.fetcher.fetch

theorem putOutcome_fetch (n k : Nat) (f : OutcomeFields) (o : PieceOutcome) (s : State) :
    SameFetch s (putOutcome n k f o s) := by
  unfold putOutcome SameFetch
  simp only []
  split
  · simp
  · split <;> simp [updatePage]

theorem putReport_fetch (b : Bundle) (c : CloseState) (w : Word) (s : State) :
    SameFetch s (putReport b c w s) := by
  unfold putReport SameFetch
  split
  · exact ⟨rfl, rfl⟩
  · split <;> simp [updatePage]

theorem releaseSkipped_fetch (s : State) : SameFetch s (releaseSkipped s) := by
  unfold releaseSkipped SameFetch
  split
  · exact ⟨rfl, rfl⟩
  · simp only []; split <;> simp

theorem removeBundle_fetch (b : Bundle) (c : CloseState) (s : State) :
    SameFetch s (removeBundle b c s) := by simp [removeBundle, SameFetch]

theorem removeBundle_stacker (b : Bundle) (c : CloseState) (s : State) :
    (removeBundle b c s).stacker = s.stacker := by simp [removeBundle]

/-- All but what the abort of R46 writes out and closes is the same. -/
def SameButAbort (s t : State) : Prop :=
  SameButBundles t s ∧ t.stacker = s.stacker ∧ SameFetch s t ∧
  t.intake.window = s.intake.window

theorem SameButAbort.trans {s t u : State} (h : SameButAbort s t) (k : SameButAbort t u) :
    SameButAbort s u := by
  obtain ⟨hf, hs, ⟨h1, h2⟩, hw⟩ := h
  obtain ⟨kf, ks, ⟨k1, k2⟩, kw⟩ := k
  refine ⟨?_, ks.trans hs, ⟨k1.trans h1, k2.trans h2⟩, kw.trans hw⟩
  simp only [SameButBundles, LinkKept] at hf kf ⊢
  simp only [kf, hf, and_self]

theorem SameButAbort.refl (s : State) : SameButAbort s s := by
  simp [SameButAbort, SameFetch, SameButBundles, LinkKept]

theorem SameButAbort.foldl {α : Type} (f : State → α → State) (h : ∀ u a, SameButAbort u (f u a))
    (l : List α) (s : State) : SameButAbort s (l.foldl f s) := by
  induction l generalizing s with
  | nil => exact .refl s
  | cons a l ih => exact (h s a).trans (ih _)

theorem putOutcome_abort (n k : Nat) (f : OutcomeFields) (o : PieceOutcome) (s : State) :
    SameButAbort s (putOutcome n k f o s) :=
  ⟨by simp [SameButBundles, LinkKept], by simp, putOutcome_fetch n k f o s, by simp⟩

theorem abortRecords_abort (s : State) : SameButAbort s (abortRecords s) := by
  unfold abortRecords; split
  · exact .refl s
  · exact (SameButAbort.foldl abortStaged (fun u _ => putOutcome_abort _ _ _ _ u) _ s).trans
      (.foldl abortContext (fun u _ => putOutcome_abort _ _ _ _ u) _ _)

theorem abortBundle_abort (s : State) (b : Bundle) : SameButAbort s (abortBundle s b) := by
  refine ⟨by simp [abortBundle, SameButBundles, LinkKept],
    by simp [abortBundle, removeBundle_stacker], ?_, by simp [abortBundle, removeBundle]⟩
  obtain ⟨h1, h2⟩ := putReport_fetch b .aborted 0 s
  obtain ⟨k1, k2⟩ := removeBundle_fetch b .aborted (putReport b .aborted 0 s)
  exact ⟨k1.trans h1, k2.trans h2⟩

theorem closePage_abort (q : OpenPage) (s : State) : SameButAbort s (closePage q s) :=
  ⟨by simp [SameButBundles, LinkKept], by simp, by simp [SameFetch], by simp⟩

theorem abortPages_abort (s : State) : SameButAbort s (abortPages s) := by
  unfold abortPages; split
  · exact .refl s
  · refine SameButAbort.trans (.foldl (fun t q => closePage q t) (fun u q => closePage_abort q u)
      s.fetcher.pages s) ?_
    exact ⟨by simp [SameButBundles, LinkKept], by simp, releaseSkipped_fetch _, by simp⟩

/-- The state of ABORT_JOB after its writes of R46, before the collections are emptied. -/
def abortWritten (s : State) : State := abortPages (abortBundles (abortRecords (endFetch s)))

theorem abortWritten_abort (s : State) : SameButAbort (endFetch s) (abortWritten s) :=
  (abortRecords_abort _).trans ((SameButAbort.foldl abortBundle abortBundle_abort _ _).trans
    (abortPages_abort _))

theorem abortJob_eq (s : State) :
    abortJob s = changeLine .reset { idleBlocks (abortWritten s) with profile := none } := rfl

/-! ## The IDLE values -/

/-- A station's entry at the return to IDLE (R70). -/
def Station.idled (e : Station) : Station :=
  { e with state := .offline, misses := 0, doubles := 0, cause := none }

theorem idleStations_frame (l : List (Fin 12)) (s : State) :
    SameButStations (l.foldl idleStation s) s := by
  induction l generalizing s with
  | nil => simp [SameButStations, LinkKept]
  | cons n l ih =>
    have h := ih (idleStation s n)
    simpa [idleStation, SameButStations, LinkKept] using h

theorem idleStations_get (l : List (Fin 12)) (s : State) (n : Fin 12) :
    (l.foldl idleStation s).stations.get n =
      if n ∈ l then (s.stations.get n).idled else s.stations.get n := by
  induction l generalizing s with
  | nil => simp
  | cons m l ih =>
    have hm : (idleStation s m).stations.get n =
        if n = m then (s.stations.get n).idled else s.stations.get n := by
      by_cases h : n = m
      · subst h; simp [idleStation, Vector.get_eq_getElem, Station.idled]
      · have hv : m.val ≠ n.val := fun e => h (Fin.ext e.symm)
        simp [idleStation, Vector.get_eq_getElem, h, hv]
    rw [List.foldl_cons, ih, hm]
    by_cases h : n = m <;> by_cases hl : n ∈ l <;> simp [h, hl, Station.idled]

@[simp] theorem emptyCollections_fields (s : State) :
    let t := emptyCollections s
    t.profile = s.profile ∧ t.line = s.line ∧ t.track = .reset ∧ t.staging = [] ∧
    t.contexts = Vector.replicate 128 none ∧ t.bundles = [] ∧ t.remakes = [] ∧ t.gate = .pass ∧
    t.fetcher = { s.fetcher with pages := [], skipped := none, held := none } ∧
    t.intake.window = none ∧ t.stations = s.stations ∧ t.gauge = s.gauge ∧
    t.print = { s.print with readBacks := [], window := [] } ∧ t.stacker = s.stacker ∧
    t.inputs = s.inputs ∧ t.pending = s.pending ∧ t.request = s.request ∧
    t.freeCount = s.freeCount ∧ LinkKept t s := by
  simp [emptyCollections, LinkKept]

/-- The blocks at their IDLE values (R180, step 3). -/
theorem idleBlocks_fields (s : State) :
    let t := idleBlocks s
    t.line = s.line ∧ t.track = .reset ∧ t.staging = [] ∧
    t.contexts = Vector.replicate 128 none ∧ t.bundles = [] ∧ t.remakes = [] ∧ t.gate = .pass ∧
    t.fetcher.pages = [] ∧ t.fetcher.fetch = s.fetcher.fetch ∧
    (accessStopped s = false → t.fetcher.state = .off) ∧ t.intake.window = none ∧
    (∀ n, t.stations.get n = (s.stations.get n).idled) ∧
    t.gauge = { s.gauge with state := .off } ∧ t.print = .reset ∧ t.wrap = .reset ∧
    t.stacker = s.stacker ∧ t.inputs = s.inputs ∧ t.pending = s.pending ∧
    t.request = s.request ∧ LinkKept t s := by
  unfold idleBlocks idleWrap
  simp only []
  generalize hu : applyIf (!accessStopped s) (setFetch .off) (emptyCollections s) = u
  have hf : SameButFetcher u (emptyCollections s) := by
    rw [← hu]; unfold applyIf; split <;> simp [SameButFetcher, LinkKept]
  obtain ⟨hpages, hfetch, hoff⟩ : u.fetcher.pages = [] ∧ u.fetcher.fetch = s.fetcher.fetch ∧
      (accessStopped s = false → u.fetcher.state = .off) := by
    rw [← hu]; unfold applyIf; split <;> simp_all
  have hs := idleStations_frame (List.finRange 12) u
  have hget := fun n => idleStations_get (List.finRange 12) u n
  simp only [SameButFetcher, SameButStations, LinkKept] at hf hs
  generalize (List.finRange 12).foldl idleStation u = v at hs hget
  simpa [hf, hs, hget, hpages, hfetch, setHead_print, PrintUnit.reset, LinkKept] using hoff

/-- ABORT_JOB leaves the line IDLE without a job and every block at its IDLE values (R180). -/
theorem abortJob_fields (s : State) :
    let t := abortJob s
    t.line = Line.reset ∧ t.profile = none ∧ t.track = .reset ∧ t.staging = [] ∧
    t.contexts = Vector.replicate 128 none ∧ t.bundles = [] ∧ t.remakes = [] ∧ t.gate = .pass ∧
    t.fetcher.pages = [] ∧ t.fetcher.fetch = none ∧
    (accessStopped s = false → t.fetcher.state = .off) ∧ t.intake.window = none ∧
    (∀ n, t.stations.get n = (s.stations.get n).idled) ∧
    t.gauge = { s.gauge with state := .off } ∧ t.print = .reset ∧ t.wrap = .reset ∧
    t.stacker = s.stacker ∧ t.inputs = s.inputs ∧ t.pending = s.pending ∧
    t.request = s.request := by
  obtain ⟨hw, hst, ⟨hf1, hf2⟩, -⟩ := abortWritten_abort s
  have hstop : accessStopped (abortWritten s) = accessStopped s := by
    simp [accessStopped, hf1, endFetch]
  have hi := idleBlocks_fields (abortWritten s)
  simp only [SameButBundles, LinkKept, endFetch] at hw hst hf2 hi
  rw [hstop] at hi
  rw [abortJob_eq]
  generalize idleBlocks (abortWritten s) = u at hi
  have ⟨_, _, _, _, _, _, _, _, _, hoff, _⟩ := hi
  simpa [hi, hw, hst, hf2, changeLine_wrap, setLine_wrap, Line.reset] using hoff

end Sys2Proof.Machine
end

section
/-! Every command keeps a job in range: command by command, and EveryStepKeepsTheJobInRange from it. -/

namespace Sys2Proof.Machine

/-- The profile held is valid, the track is full and the counts are in range (R2, R6, R170). -/
def JobInRange (s : State) : Prop := ProfileLoaded s ∧ TrackFull s ∧ CountsInRange s

theorem Steady.inRange {s t : State} (h : Steady s t) (k : JobInRange s) : JobInRange t :=
  h.keepsJob k.1 k.2.1 k.2.2

/-- The answer of a command keeps the job in range. -/
def KeepsJob (s : State) (a : Answer) : Prop := ∀ t, a = .next t → JobInRange s → JobInRange t

theorem KeepsJob.next {s t : State} (h : JobInRange s → JobInRange t) : KeepsJob s (.next t) := by
  intro u e k
  cases e
  exact h k

theorem KeepsJob.steady {s t : State} (h : Steady s t) : KeepsJob s (.next t) := .next h.inRange

theorem KeepsJob.refl (s : State) : KeepsJob s (.next s) := .next fun k => k

/-- A command that a request carries out acts only on its request. -/
theorem KeepsJob.handed {code : Nat} {s : State} {f : Request → Answer}
    (h : ∀ r, KeepsJob s (f r)) :
    KeepsJob s (match handedRequest code s with | none => .next s | some r => f r) := by
  split
  · exact .refl s
  · exact h _

theorem profile_of_job {p : Profile} {s : State} (h : s.job = some p) : s.profile = some p := by
  unfold State.job at h
  split at h
  · simp at h
  · exact h

/-- A command that acts on the loaded profile. -/
theorem job_inRange {p : Profile} {s : State} (hp : s.job = some p) (h : JobInRange s) :
    s.profile = some p ∧ s.line.state ≠ .idle ∧ p.firstFailure = none ∧
      s.track.base < p.trackLen ∧
      ∀ i : Fin 128, (s.track.entries.get i).isSome = decide (i.val < p.trackLen) := by
  obtain ⟨hl, ht, -⟩ := h
  have hprof := profile_of_job hp
  unfold ProfileLoaded at hl
  unfold TrackFull at ht
  rw [hprof] at hl ht
  exact ⟨hprof, hl.1, hl.2, ht⟩

/-! ## The profile checks that the ranges need -/

/-- A valid profile passes every check (R170). -/
theorem checks_of_firstFailure {p : Profile} (h : p.firstFailure = none) :
    ∀ c ∈ p.checks, c.2 = true := by
  intro c hc
  have := List.find?_eq_none.mp (Option.map_eq_none_iff.mp h) c hc
  simpa using this

/-- The length of the track, CPP and the initial zero of a valid profile (R170). -/
theorem valid_ranges {p : Profile} (h : p.firstFailure = none) :
    16 ≤ p.trackLen ∧ p.trackLen ≤ 128 ∧ 100 ≤ p.cpp ∧ p.initialZero ≤ 4095 := by
  have hc := checks_of_firstFailure h
  have hlen := hc (4, decide (16 ≤ p.trackLen) && decide (p.trackLen ≤ 128)) (by simp [Profile.checks])
  have hcpp := hc (5, decide (100 ≤ p.cpp) && decide (p.cpp ≤ 4000)) (by simp [Profile.checks])
  have hzero := hc (12, decide (p.initialZero ≤ 4095)) (by simp [Profile.checks])
  simp only [Bool.and_eq_true, decide_eq_true_eq] at hlen hcpp hzero
  exact ⟨hlen.1, hlen.2, hcpp.1, hzero⟩

/-! ## Resets, and the begin and the end of a job -/

/-- With no job, the units at their reset values are in range. -/
theorem inRange_reset {s : State} (hp : s.profile = none) (hl : s.line.state = .idle)
    (ht : s.track = .reset) (hw : s.wrap = .reset) (hu : s.print = .reset)
    (hv : StationsInRange s.stations) (hi : s.intake.window = none) (hg : GaugeInRange s.gauge) :
    JobInRange s := by
  refine ⟨by rw [ProfileLoaded, hp]; exact hl, ?_, ?_⟩
  · rw [TrackFull, hp, ht]
    intro i
    simp [Track.reset, Vector.get_eq_getElem]
  · rw [countsInRange_iff, hp, ht, hw, hu, hi]
    exact ⟨by simp, by simp [Track.reset], by simp [WrapInRange, Wrap.reset],
      by simp [PrintInRange, HeadInRange, PrintUnit.reset, HeadEntry.reset], hv,
      by simp [WindowInRange], hg⟩

theorem powerOnState_inRange (s : State) : JobInRange (powerOnState s) :=
  inRange_reset rfl rfl rfl rfl rfl
    (fun n => by simp [powerOnState, State.reset, Vector.get_eq_getElem, StationInRange, Station.reset])
    rfl ⟨by simp [powerOnState, State.reset], by simp [powerOnState, State.reset]⟩

theorem softResetState_inRange (s : State) : JobInRange (softResetState s) := powerOnState_inRange s

theorem abortJob_inRange {s : State} (h : JobInRange s) : JobInRange (abortJob s) := by
  obtain ⟨hl, hp, ht, -, -, -, -, -, -, -, -, hi, hv, hg, hu, hw, -⟩ := abortJob_fields s
  refine inRange_reset hp (by rw [hl]; rfl) ht hw hu (fun n => ?_) hi ?_
  · rw [hv n]; exact ⟨by simp [Station.idled], by simp [Station.idled]⟩
  · obtain ⟨-, -, hc⟩ := h
    rw [countsInRange_iff] at hc
    obtain ⟨-, -, -, -, -, -, hgauge⟩ := hc
    rw [hg]; exact hgauge

theorem initJobState_inRange {p : Profile} (h : p.firstFailure = none) (s : State) :
    JobInRange (initJobState p s) := by
  obtain ⟨hlen, -, hcpp, hzero⟩ := valid_ranges h
  refine ⟨⟨by simp [initJobState], h⟩, ⟨?_, fun i => ?_⟩, ?_⟩
  · simp only [initJobState, firstTrack]; omega
  · simp only [initJobState, firstTrack, Vector.get_eq_getElem, Vector.getElem_ofFn]
    split <;> simp_all
  · rw [countsInRange_iff]
    refine ⟨fun q e => ?_, by simp [initJobState, firstTrack],
      by simp [initJobState, WrapInRange, Wrap.reset],
      by simp [initJobState, PrintInRange, HeadInRange, firstHead], fun n => ?_,
      by simp [initJobState, WindowInRange], ?_⟩
    · cases e; simp only [initJobState, firstTrack]; omega
    · simp [initJobState, Vector.get_eq_getElem, StationInRange, firstStation]
    · simp only [initJobState, firstGauge, GaugeInRange]; omega

/-! ## Registers, the link and the fetcher -/

theorem writeEnable_steady (b : Bool) (s : State) : Steady s (writeEnable b s) := by
  unfold writeEnable; split
  · exact .of_same rfl rfl rfl rfl rfl rfl rfl rfl
  · split
    · exact .of_same rfl rfl rfl rfl rfl rfl rfl rfl
    · exact .refl s

theorem writeAnchor_steady (b : Bool) (v : Word) (s : State) : Steady s (writeAnchor b v s) := by
  unfold writeAnchor; split
  · split <;> exact .of_same rfl rfl rfl rfl rfl rfl rfl rfl
  · exact .refl s

theorem clearAttention_steady (v : Word) (s : State) : Steady s (clearAttention v s) :=
  .of_same rfl rfl rfl rfl rfl rfl rfl rfl

theorem writeControl_inRange (v : Word) {s : State} (h : JobInRange s) :
    JobInRange (writeControl v s) := by
  unfold writeControl; split
  · exact softResetState_inRange s
  · exact (writeEnable_steady _ s).inRange h

theorem writeRegister_inRange (o v : Word) {s : State} (h : JobInRange s) :
    JobInRange (writeRegister o v s) := by
  unfold writeRegister
  split
  · exact (Steady.of_same rfl rfl rfl rfl rfl rfl rfl rfl).inRange h
  · split
    · exact writeControl_inRange v h
    · split
      · exact (clearAttention_steady v s).inRange h
      · split
        · exact (writeAnchor_steady _ v s).inRange h
        · split
          · exact (writeAnchor_steady _ v s).inRange h
          · exact h

/-- A completion that has arrived changes the link alone. -/
theorem takeCompletion_steady (o : ReadOrigin) (k : ReadKind) (s : State) :
    Steady s (takeCompletion o k s) := by
  cases o <;> exact .of_same rfl rfl rfl rfl rfl rfl rfl rfl

theorem pollLink_steady (s : State) : Steady s (pollLink s) := by
  unfold pollLink; split
  · exact .of_link (readLink_frame s)
  · exact .refl s

theorem takeLinkRead_steady (p : Profile) (v : Address) (s : State) :
    Steady s (takeLinkRead p v s) := by
  have held (w : Address) : Steady s (holdLink w s) := fetcherOnly_steady s _
  unfold takeLinkRead
  refine Steady.trans ?_ (settle_steady _)
  split
  · unfold takeRetryLink; split
    · exact (held 0).trans ((setFetch_steady _ _).trans (finishCode_steady _ _ _))
    · exact (held v).trans (retryAddress_steady _ _ _)
  · unfold takeLinkWord
    refine (held v).trans ?_
    simp only []
    split
    · exact setFetch_steady _ _
    · split
      · exact setFetch_steady _ _
      · exact keeps_steady.fetcher (beginFetch_frame _ _ _)

theorem execLinkReadDone_keepsJob (c : CompletedRead) (s : State) :
    KeepsJob s (execLinkReadDone c s) := by
  have hc := takeCompletion_steady c.origin .linkWord s
  unfold execLinkReadDone
  simp only []
  split
  · exact .steady (hc.trans (takeLinkRead_steady _ _ _))
  · exact .steady hc

theorem takeHeader_steady (p : Profile) (f : Fetch) (h : PageHeader) (s : State) :
    Steady s (takeHeader p f h s) := by
  unfold takeHeader; split
  · exact (refusePage_steady _ _ _ _ s).trans ((afterFetch_steady p _).trans (settle_steady _))
  · exact (fetcherOnly_steady s _).trans (.of_link (issueRead_frame _ _ _))

theorem execHeaderReadDone_keepsJob (c : CompletedRead) (s : State) :
    KeepsJob s (execHeaderReadDone c s) := by
  have hc := takeCompletion_steady c.origin .pageHeader s
  unfold execHeaderReadDone
  simp only []
  split
  · exact .steady (hc.trans (takeHeader_steady _ _ _ _))
  · exact .steady hc

theorem takePage_steady (p : Profile) (a : Address) (h : PageHeader) (l : List RecordFields)
    (s : State) : Steady s (takePage p a h l s) := by
  unfold takePage
  refine Steady.trans ?_ (settle_steady _)
  refine Steady.trans ?_ (afterFetch_steady p _)
  split
  · exact refusePage_steady _ _ _ _ s
  · exact acceptPage_steady _ _ _ _ _ s

theorem execRecordsReadDone_keepsJob (c : CompletedRead) (s : State) :
    KeepsJob s (execRecordsReadDone c s) := by
  have hc := takeCompletion_steady c.origin .pageRecords s
  unfold execRecordsReadDone
  simp only []
  split
  · exact .steady (hc.trans (takePage_steady _ _ _ _ _))
  · exact .steady hc

theorem loseLink_steady (s : State) : Steady s (loseLink s) :=
  Steady.trans (t := { s with link := { s.link with active := false } })
    (.of_same rfl rfl rfl rfl rfl rfl rfl rfl)
    (keeps_steady.applyIf fun _ => accessFailure_steady _)

theorem gainLink_steady (s : State) : Steady s (gainLink s) :=
  Steady.trans (t := { s with link := { s.link with active := true, waiting := [] } })
    (.of_same rfl rfl rfl rfl rfl rfl rfl rfl)
    (keeps_steady.foldl _ (fun _ i => .of_link (performItem_frame i _)) _ _)

/-! ## Counts and the pitch event -/

theorem forwardStep_inRange {p : Profile} {s : State} (hp : s.job = some p) (h : JobInRange s) :
    JobInRange { s with track := forwardStep p s.track } := by
  obtain ⟨hprof, -, -, -⟩ := job_inRange hp h
  obtain ⟨hl, ht, hc⟩ := h
  rw [countsInRange_iff] at hc
  obtain ⟨hacc, hdef, hrest⟩ := hc
  have hacc := hacc p hprof
  have hkept : (forwardStep p s.track).base = s.track.base ∧
      (forwardStep p s.track).entries = s.track.entries := by
    unfold forwardStep; split
    · exact ⟨rfl, rfl⟩
    · split <;> exact ⟨rfl, rfl⟩
  obtain ⟨hbase, hent⟩ := hkept
  refine ⟨hl, ?_, ?_⟩
  · simpa only [TrackFull, hbase, hent] using ht
  · rw [countsInRange_iff]
    refine ⟨fun q e => ?_, ?_, hrest⟩
    · obtain rfl : q = p := Option.some.inj (e.symm.trans hprof)
      show (forwardStep q s.track).accumulator < q.cpp
      unfold forwardStep; split
      · exact hacc
      · split <;> simp only [] <;> omega
    · show (forwardStep p s.track).deficit ≤ 65535
      unfold forwardStep; split
      · simp only []; omega
      · split <;> exact hdef

/-- The deficit stays at its top (R3). -/
theorem deficitAfter_le {d : Nat} (h : d ≤ 65535) : deficitAfter d ≤ 65535 := by
  unfold deficitAfter Config.countLimit; split <;> omega

theorem reverseStep_inRange (p : Profile) {s : State} (h : JobInRange s) :
    JobInRange (reverseStep p s) := by
  have counted : JobInRange { s with track := { s.track with
      deficit := deficitAfter s.track.deficit } } := by
    obtain ⟨hl, ht, hc⟩ := h
    rw [countsInRange_iff] at hc
    obtain ⟨hacc, hdef, hrest⟩ := hc
    refine ⟨hl, ht, ?_⟩
    rw [countsInRange_iff]
    exact ⟨hacc, deficitAfter_le hdef, hrest⟩
  exact ((Steady.of_link (bump_frame .reverseCounts _)).trans
    (keeps_steady.applyIf fun _ => raiseHalt_steady _ _)).inRange counted

/-- A pitch event taken leaves one pocket at each position (R6, R7). -/
theorem takePitch_inRange {p : Profile} (r : BitVec 12) (order : List PitchPart) {s : State}
    (hp : s.job = some p) (h : JobInRange s) : JobInRange (takePitch p r order s) := by
  obtain ⟨hprof, hidle, hvalid, hbase, hfull⟩ := job_inRange hp h
  obtain ⟨-, hlen, -, -⟩ := valid_ranges hvalid
  have f := takePitch_fills r order hbase hlen
  have hstep := base_back hbase
  have hat := advanceTable_at p s hbase hlen
  generalize hu : bump .pitches (advanceTable p s) = u at f
  obtain ⟨hub, hup, hul, huw, huc⟩ : u.track = (advanceTable p s).track ∧ u.profile = s.profile ∧
      u.line = s.line ∧ UnitsKept s u ∧ (u.track.accumulator = s.track.accumulator ∧
        u.track.deficit = s.track.deficit) := by
    subst hu
    exact ⟨rfl, rfl, rfl, .of_same rfl rfl rfl rfl rfl, rfl, rfl⟩
  have hnb : u.track.base < p.trackLen := by rw [hub]; exact hstep.1
  have hprof' : (takePitch p r order s).profile = some p := by rw [f.profile, hup, hprof]
  refine ⟨?_, ?_, ?_⟩
  · rw [ProfileLoaded, hprof']
    exact ⟨fun k => hidle (by rw [← hul]; exact f.idle.mp k), hvalid⟩
  · rw [TrackFull, hprof']
    refine ⟨by rw [f.base]; exact hnb, fun i => ?_⟩
    rw [← Track.pocketAt_get]
    by_cases hi : i.val = u.track.base
    · have := congrArg Option.isSome f.filled
      rw [Option.isSome_map] at this
      rw [hi, this]
      simpa using hnb
    · have := congrArg Option.isSome (f.others i.val hi)
      rw [Option.isSome_map, Option.isSome_map] at this
      rw [this, hub, hat, if_neg (by rw [← hub]; exact hi), Track.pocketAt_get]
      exact hfull i
  · obtain ⟨-, -, hc⟩ := h
    rw [countsInRange_iff] at hc ⊢
    obtain ⟨hacc, hdef, hw, hpr, hv, hi, hg⟩ := hc
    have k := huw.trans f.units
    refine ⟨fun q e => ?_, ?_, k.wrap hw, k.print hpr, k.stations hv, k.window hi, k.gauge hg⟩
    · rw [hprof'] at e; cases e
      rw [f.accumulator, huc.1]; exact hacc p hprof
    · rw [f.deficit, huc.2]; exact hdef

theorem execPitchEvent_keepsJob (input : Int) (order : List PitchPart) (s : State) :
    KeepsJob s (execPitchEvent input order s) := by
  unfold execPitchEvent; split
  · exact .refl s
  · next p hp =>
    split
    · exact .next (takePitch_inRange _ order hp)
    · exact .refl s

theorem execTailWindowExpiry_keepsJob (s : State) : KeepsJob s (execTailWindowExpiry s) := by
  unfold execTailWindowExpiry; split
  · split
    · exact .steady ((expiryTest_keeps keeps_steady _ s).trans (settle_steady _))
    · exact .refl s
  · exact .refl s

theorem execPurgeEnd_keepsJob (h : Head) (s : State) : KeepsJob s (execPurgeEnd h s) := by
  unfold execPurgeEnd
  simp only []
  split
  · exact .steady ((endPurge_keeps keeps_steady h s).trans (settle_steady _))
  · exact .refl s

end Sys2Proof.Machine
end

section
/-! The rest of the commands, and EveryStepKeepsTheJobInRange. -/

namespace Sys2Proof.Machine

/-! ## The station loop, film and seal -/

/-- A PICK changes the consecutive counts up to 15 (R74). -/
theorem afterPick_range (e : Station) (r : PickResult) : StationInRange (e.afterPick r) := by
  cases r <;> simp [Station.afterPick, StationInRange]

theorem limitTest_steady (n : Fin 12) (r : PickResult) (s : State) : Steady s (limitTest n r s) := by
  unfold limitTest
  simp only []
  split
  · exact stationFault_steady _ _ s
  · exact .refl s

/-- The pocket that a PICK matches stands in its entry. -/
theorem matchPick_some {n : Fin 12} {tag : Tag} {i : Nat} {k : Pocket} {s : State}
    (h : matchPick n tag s = some (i, k)) : s.track.pocketAt i = some k := by
  unfold matchPick at h
  split at h
  · simp at h
  · split at h
    · simp at h
    · next hk =>
      split at h
      · cases h; exact hk
      · simp at h

theorem takeMatchedPick_steady (n : Fin 12) (r : PickResult) {i : Nat} {k : Pocket} {s : State}
    (hk : s.track.pocketAt i = some k) : Steady s (takeMatchedPick n i k r s) := by
  unfold takeMatchedPick
  simp only []
  generalize hq : ({ k with pend := { k.pend with
    stations := StationSet.remove k.pend.stations n } } : Pocket) = q
  have hb : k.Becomes q := by subst hq; exact ⟨rfl, fun h => h⟩
  have counted := (setPocket_steady q s hk hb).trans (.of_link (bumpStation_frame n (pickCounter r) _))
  generalize bumpStation n (pickCounter r) (setPocket i q s) = u at counted
  have picked := counted.trans
    (setStation_steady n ((u.stations.get n).afterPick r) u fun _ => afterPick_range _ r)
  split
  · exact picked
  · refine Steady.trans ?_ (settle_steady _)
    refine Steady.trans ?_ (limitTest_steady n r _)
    exact picked.trans (handFault_keeps keeps_steady _ _ _ _ _)

theorem takePick_steady (n : Fin 12) (tag : Tag) (r : PickResult) (s : State) :
    Steady s (takePick n tag r s) := by
  unfold takePick
  refine (setStation_steady n { s.stations.get n with timer := true } s fun h => h).trans ?_
  simp only []
  split
  · exact .of_link (bumpStation_frame _ _ _)
  · next h => exact takeMatchedPick_steady n r (matchPick_some h)

theorem execPick_keepsJob (a : Byte) (tag : Tag) (r : PickResult) (b : Bool) (s : State) :
    KeepsJob s (execPick a tag r b s) := by
  unfold execPick; split
  · split
    · exact .steady (takePick_steady _ _ _ s)
    · exact .refl s
  · exact .refl s

theorem setSeal_steady (ok : Bool) (s : State) : Steady s (setSeal ok s) :=
  .of_units (by simp) (by simp) (by simp)
    { wrap := fun h => by rw [setSeal_wrap]; exact h, clear := fun h => by rw [setSeal_wrap]; exact h }

/-- The staleness timer alone changes. -/
theorem wrapTimer_steady (b : Bool) (s : State) :
    Steady s { s with wrap := { s.wrap with timer := b } } :=
  .of_units rfl rfl Iff.rfl { wrap := fun h => h, clear := fun h => h }

theorem takeTemperature_steady (t : Nat) (s : State) : Steady s (takeTemperature t s) := by
  unfold takeTemperature
  simp only []
  split
  · exact .refl s
  · refine Steady.trans ?_ (keeps_steady.applyIf fun _ => .of_link (bump_frame _ _))
    exact (wrapTimer_steady true s).trans (setSeal_steady _ _)

theorem takeSealerState_steady (c : Condition) (t : Nat) (s : State) :
    Steady s (takeSealerState c t s) := by
  unfold takeSealerState
  refine Steady.trans (t := { s with sealerTimer := true })
    (.of_same rfl rfl rfl rfl rfl rfl rfl rfl) ?_
  simp only []
  split
  · exact takeTemperature_steady t _
  · exact .refl _

theorem takeStationState_steady (n : Fin 12) (c : Condition) (s : State) :
    Steady s (takeStationState n c s) := by
  unfold takeStationState
  refine (setStation_steady n { s.stations.get n with timer := true, lastState := some c } s
    fun h => h).trans ?_
  simp only []
  split
  · exact stationFault_steady _ _ _
  · exact .refl _

theorem execStateMessage_keepsJob (a : Byte) (c : Condition) (t : BitVec 16) (b : Bool) (s : State) :
    KeepsJob s (execStateMessage a c t b s) := by
  unfold execStateMessage; split
  · exact .refl s
  · split
    · exact .steady (takeStationState_steady _ _ s)
    · split
      · exact .steady (takeSealerState_steady _ _ s)
      · exact .refl s

theorem stationSilent_steady (n : Fin 12) (s : State) : Steady s (stationSilent n s) := by
  unfold stationSilent
  refine (setStation_steady n { s.stations.get n with timer := false, lastState := none } s
    fun h => h).trans ?_
  simp only []
  split
  · exact stationFault_steady _ _ _
  · exact .refl _

theorem execSilenceTimeout_keepsJob (a : Fin 13) (s : State) :
    KeepsJob s (execSilenceTimeout a s) := by
  unfold execSilenceTimeout; split
  · split
    · exact .steady (stationSilent_steady _ s)
    · exact .refl s
  · exact .steady (.of_same rfl rfl rfl rfl rfl rfl rfl rfl)

theorem execStalenessTimeout_keepsJob (s : State) : KeepsJob s (execStalenessTimeout s) := by
  unfold execStalenessTimeout; split
  · refine .steady ((wrapTimer_steady false s).trans ((setSeal_steady false _).trans ?_))
    exact keeps_steady.applyIf fun _ => .of_link (bump_frame _ _)
  · exact .refl s

/-- A film count stays within 65535 either way (R123). -/
theorem filmAfter_range {f : Int} (b : Bool) (h : f.natAbs ≤ 65535) :
    (filmAfter f b).natAbs ≤ 65535 := by
  unfold filmAfter Config.countLimit; split <;> split <;> omega

/-- Another wrap record in range leaves the job in range. -/
theorem wrap_inRange (w : Wrap) {s : State} (hw : WrapInRange s.wrap → WrapInRange w)
    (h : JobInRange s) : JobInRange { s with wrap := w } := by
  obtain ⟨hl, ht, hc⟩ := h
  rw [countsInRange_iff] at hc
  obtain ⟨ha, hd, hwrap, hrest⟩ := hc
  refine ⟨hl, ht, ?_⟩
  rw [countsInRange_iff]
  exact ⟨ha, hd, hw hwrap, hrest⟩

theorem filmStep_inRange (p : Profile) (b : Bool) {s : State} (h : JobInRange s) :
    JobInRange (filmStep p b s) := by
  have counted := wrap_inRange { s.wrap with film := filmAfter s.wrap.film b }
    (fun k => ⟨filmAfter_range b k.1, k.2⟩) h
  unfold filmStep
  simp only []
  split
  · refine ((Steady.of_link (bump_frame .runaways _)).trans (raiseHalt_steady _ _)).inRange ?_
    exact wrap_inRange { s.wrap with film := filmAfter s.wrap.film b, runaway := true }
      (fun k => ⟨filmAfter_range b k.1, k.2⟩) h
  · exact counted

theorem execFilmCount_keepsJob (b : Bool) (s : State) : KeepsJob s (execFilmCount b s) := by
  unfold execFilmCount; split
  · exact .refl s
  · exact .next (filmStep_inRange _ b)

/-! ## Heads and reader -/

/-- The pocket that a head reply matches stands in its entry. -/
theorem matchHeadReply_some {h : Head} {tag : Tag} {i : Nat} {k : Pocket} {s : State}
    (m : matchHeadReply h tag s = some (i, k)) : s.track.pocketAt i = some k := by
  unfold matchHeadReply at m
  split at m
  · simp at m
  · split at m
    · simp at m
    · next hk =>
      split at m
      · cases m; exact hk
      · simp at m

theorem dropHeadAck_steady {i : Nat} {k : Pocket} {s : State} (hk : s.track.pocketAt i = some k) :
    Steady s (dropHeadAck i k s) := setPocket_steady _ s hk ⟨rfl, fun h => h⟩

theorem takeDone_steady (h : Head) (tag : Tag) (s : State) : Steady s (takeDone h tag s) := by
  unfold takeDone; split
  · exact .of_link (bump_frame _ s)
  · next m => exact dropHeadAck_steady (matchHeadReply_some m)

theorem execDone_keepsJob (h : Head) (tag : Tag) (b : Bool) (s : State) :
    KeepsJob s (execDone h tag b s) := by
  unfold execDone; split
  · exact .steady (takeDone_steady _ _ s)
  · exact .refl s

theorem takeHeadError_steady (p : Profile) (h : Head) (tag : Tag) (s : State) :
    Steady s (takeHeadError p h tag s) := by
  unfold takeHeadError; split
  · exact .of_link (bump_frame _ s)
  · next i k m =>
    refine Steady.trans ?_ (settle_steady _)
    refine Steady.trans ?_ (keeps_steady.applyIf fun _ => swapHead_keeps keeps_steady p h _)
    refine Steady.trans ?_ (handFault_keeps keeps_steady _ _ _ _ _)
    exact (dropHeadAck_steady (matchHeadReply_some m)).trans (.of_link (bump_frame _ _))

theorem execHeadError_keepsJob (h : Head) (tag : Tag) (b : Bool) (s : State) :
    KeepsJob s (execHeadError h tag b s) := by
  unfold execHeadError; split
  · exact .refl s
  · split
    · exact .steady (takeHeadError_steady _ _ _ s)
    · exact .refl s

/-- The pocket that a reader reply matches stands in its entry. -/
theorem matchReply_some {tag : Tag} {i : Nat} {k : Pocket} {r : ReadBack} {s : State}
    (m : matchReply tag s = some (i, k, r)) : s.track.pocketAt i = some k := by
  unfold matchReply at m
  split at m
  · simp at m
  · split at m
    · simp at m
    · next hk =>
      split at m
      · obtain ⟨q, -, e⟩ := Option.map_eq_some_iff.mp m
        cases e; exact hk
      · simp at m

theorem runAfter_le {run : Nat} (r : VerifyResult) (h : run ≤ 15) : runAfter run r ≤ 15 := by
  cases r <;> simp [runAfter, h]

theorem chargeHead_steady (p : Profile) (h : Head) (r : VerifyResult) (s : State) :
    Steady s (chargeHead p h r s) := by
  unfold chargeHead
  refine Steady.trans ?_ (keeps_steady.applyIf fun _ => swapHead_keeps keeps_steady p h _)
  exact setHead_keeps keeps_steady h _ s fun k => ⟨k.1, runAfter_le r k.2⟩

/-- The verify window holds the last 8 results (R120). -/
theorem windowAfter_length (w : List VerifyResult) (r : VerifyResult) :
    (windowAfter w r).length ≤ 8 := by
  simp only [windowAfter, Config.verifyWindowLength, List.length_drop]; omega

theorem joinWindow_steady (r : VerifyResult) (s : State) : Steady s (joinWindow r s) := by
  unfold joinWindow
  refine Steady.trans
    (t := { s with print := { s.print with window := windowAfter s.print.window r } }) ?_
    (keeps_steady.applyIf fun _ => (Steady.of_link (bump_frame .slips _)).trans (raiseHalt_steady _ _))
  exact .of_units rfl rfl Iff.rfl { print := fun h => ⟨h.1, h.2.1, windowAfter_length _ _⟩ }

theorem enterResult_steady (r : VerifyResult) {i : Nat} {k : Pocket} {s : State}
    (hk : s.track.pocketAt i = some k) : Steady s (enterResult i k r s) := by
  unfold enterResult
  refine Steady.trans ?_ (keeps_steady.applyIf fun _ => updateLatestContext_keeps keeps_steady _ _ _)
  exact setPocket_steady _ s hk ⟨rfl, fun h => h⟩

theorem faultResult_steady (i : Nat) (r : VerifyResult) (s : State) :
    Steady s (faultResult i r s) := by
  unfold faultResult; split
  · exact .refl s
  · exact handFault_keeps keeps_steady _ _ _ _ s

theorem spreadResult_steady (p : Profile) (h : Head) (r : VerifyResult) (s : State) :
    Steady s (spreadResult p h r s) :=
  (Steady.of_link (bump_frame (verifyCounter r) s)).trans
    ((chargeHead_steady p h r _).trans (joinWindow_steady r _))

theorem takeResult_steady (p : Profile) (r : ReadBack) (v : VerifyResult) {i : Nat} {k : Pocket}
    {s : State} (hk : s.track.pocketAt i = some k) : Steady s (takeResult p i k r v s) := by
  unfold takeResult
  have entered (l : List ReadBack) :
      Steady s (enterResult i k v { s with print := { s.print with readBacks := l } }) :=
    (readBacks_keeps keeps_steady l s).trans (enterResult_steady v hk)
  refine Steady.trans ?_ (settle_steady _)
  split
  · exact (entered _).trans ((faultResult_steady _ _ _).trans (spreadResult_steady _ _ _ _))
  · exact (entered _).trans ((spreadResult_steady _ _ _ _).trans (faultResult_steady _ _ _))

theorem execRead_keepsJob (tag : Tag) (j : BitVec 16) (w : Word) (c : BitVec 16) (x y : Bool)
    (s : State) : KeepsJob s (execRead tag j w c x y s) := by
  unfold execRead; split
  · exact .refl s
  · split
    · exact .refl s
    · split
      · exact .steady (.of_link (bump_frame _ s))
      · next m => exact .steady (takeResult_steady _ _ _ (matchReply_some m))

theorem execNoread_keepsJob (tag : Tag) (b : Bool) (s : State) : KeepsJob s (execNoread tag b s) := by
  unfold execNoread; split
  · exact .refl s
  · split
    · exact .refl s
    · split
      · exact .steady (.of_link (bump_frame _ s))
      · next m => exact .steady (takeResult_steady _ _ _ (matchReply_some m))

/-! ## Input lines, pulses and what their conditions bring about -/

/-- An input line takes a level. -/
theorem inputs_steady (i : Inputs) (s : State) : Steady s { s with inputs := i } :=
  .of_same rfl rfl rfl rfl rfl rfl rfl rfl

theorem setStackerReady_steady (b : Bool) (s : State) : Steady s (setStackerReady b s) := by
  unfold setStackerReady
  refine Steady.trans ?_ (keeps_steady.applyIf fun _ => ?_)
  · exact inputs_steady _ s
  · exact (Steady.of_link (bump_frame .stackerStops _)).trans (raiseStop_keeps keeps_steady _ _)

theorem setGuard_steady (b : Bool) (s : State) : Steady s (setGuard b s) :=
  (inputs_steady { s.inputs with guardClosed := b } s).trans
    (keeps_steady.applyIf fun _ => raiseHalt_steady _ _)

theorem setDriveReady_steady (b : Bool) (s : State) : Steady s (setDriveReady b s) :=
  (inputs_steady { s.inputs with driveReady := b } s).trans
    (keeps_steady.applyIf fun _ => raiseHalt_steady _ _)

theorem endPulse_steady (s : State) : Steady s (endPulse s) := by
  unfold endPulse; split
  · exact .refl s
  · split <;> exact .of_same rfl rfl rfl rfl rfl rfl rfl rfl

theorem execFileEnd_keepsJob (s : State) : KeepsJob s (execFileEnd s) := by
  unfold execFileEnd; split
  · exact .steady ((fileEndTest_steady s).trans (settle_steady _))
  · exact .refl s

theorem execJobComplete_keepsJob (s : State) : KeepsJob s (execJobComplete s) := by
  unfold execJobComplete; split
  · exact .steady ((completionTest_keeps keeps_steady s).trans (settle_steady _))
  · exact .refl s

theorem execBundleClose_keepsJob (w : Word) (s : State) : KeepsJob s (execBundleClose w s) := by
  unfold execBundleClose; split
  · exact .refl s
  · refine .steady (Steady.trans ?_ (settle_steady _))
    exact (keeps_steady.applyIf fun _ => endWindow_keeps keeps_steady _ s).trans
      (closeFront_keeps keeps_steady _ _)

theorem execPageClose_keepsJob (s : State) : KeepsJob s (execPageClose s) := by
  unfold execPageClose; split
  · exact .refl s
  · exact .steady ((closePage_keeps keeps_steady _ s).trans (settle_steady _))

/-! ## Requests to the line -/

theorem chooseHead_steady (s : State) : Steady s (chooseHead s) := by
  unfold chooseHead; split
  · exact .refl s
  · split
    · refine Steady.trans ?_ (refreshHolds_steady _)
      exact setHead_keeps keeps_steady .a _ s fun h => h
    · split
      · refine Steady.trans ?_ (refreshHolds_steady _)
        exact setHead_keeps keeps_steady .b _ s fun h => h
      · exact .refl s

theorem startLine_steady {s : State} (h : s.line.state = .ready ∨ s.line.state = .paused) :
    Steady s (startLine s) := by
  have hs : (startedLine s.line).state ≠ .idle := by unfold startedLine; split <;> simp
  have hn : s.line.state ≠ .idle := by rcases h with h | h <;> simp [h]
  refine Steady.trans ?_ (completionTest_keeps keeps_steady _)
  refine Steady.trans ?_ (chooseHead_steady _)
  exact (Steady.of_link (bump_frame .starts s)).trans
    (changeLine_steady _ _ (by simpa [hs] using hn))

theorem serveStart_steady (s : State) : Steady s (serveStart s) := by
  unfold serveStart; split
  · next h =>
    split
    · exact (startLine_steady h).trans (finishCode_steady _ _ _)
    · exact finishCode_steady _ _ s
  · exact finishCode_steady _ _ s

theorem servePause_steady (s : State) : Steady s (servePause s) := by
  unfold servePause; split
  · next h => exact (enterPaused_keeps keeps_steady _ s (.inl h)).trans (finishCode_steady _ _ _)
  · next h => exact (enterPaused_keeps keeps_steady _ s (.inr h)).trans (finishCode_steady _ _ _)
  all_goals exact finishCode_steady _ _ s

/-- A drain begun in PAUSED, too, does not cross IDLE (R174). -/
theorem enterOperatorDrain_steady (c : StopCause) (d : HaltCause) (s : State)
    (h : s.line.state ≠ .idle) : Steady s (enterOperatorDrain c d s) := by
  unfold enterOperatorDrain
  refine Steady.trans ?_ (drainEndTest_keeps keeps_steady _)
  refine Steady.trans ?_ (settle_steady _)
  exact (Steady.of_link (bump_frame .drains s)).trans (changeLine_steady _ _ (by simpa using h))

theorem serveDrain_steady (s : State) : Steady s (serveDrain s) := by
  unfold serveDrain; split
  · next h =>
    exact (enterOperatorDrain_steady _ _ s (by simp [h])).trans (finishCode_steady _ _ _)
  · next h =>
    split
    · exact (enterOperatorDrain_steady _ _ s (by simp [h])).trans (finishCode_steady _ _ _)
    · exact finishCode_steady _ _ s
  · split <;> exact finishCode_steady _ _ s
  all_goals exact finishCode_steady _ _ s

theorem serveClearHalt_steady (s : State) : Steady s (serveClearHalt s) := by
  unfold serveClearHalt; split
  · exact finishFree_steady _ s
  · split
    · next h =>
      split
      · exact (changeLine_steady _ s (by simp [h])).trans (finishCode_steady _ _ _)
      · exact finishCode_steady _ _ s
    · exact finishCode_steady _ _ s

theorem serveAbort_inRange {s : State} (h : JobInRange s) : JobInRange (serveAbort s) := by
  have aborted (n : Nat) : JobInRange (finishCode .doneOk n (abortJob s)) :=
    (finishCode_steady _ _ _).inRange (abortJob_inRange h)
  unfold serveAbort; split
  · exact (finishCode_steady _ _ s).inRange h
  · split
    · exact aborted _
    · exact aborted _
    · exact aborted _
    · exact aborted _
    all_goals exact (finishCode_steady _ _ s).inRange h

theorem serveFetcher_steady {serve : Profile → State → State} (s : State)
    (h : ∀ p, Steady s (serve p s)) : Steady s (serveFetcher serve s) := by
  unfold serveFetcher; split
  · exact finishFree_steady _ s
  · split
    · exact setPhase_steady _ s
    · exact h _

/-! ## Scanning and LOAD_JOB -/

/-- The request in progress alone changes. -/
theorem request_steady (r : Option Request) (s : State) : Steady s { s with request := r } :=
  .of_same rfl rfl rfl rfl rfl rfl rfl rfl

theorem scan_steady (s : State) : Steady s (scan s) := by
  unfold scan; split
  · exact .of_link (issueRead_frame _ _ s)
  · exact .refl s

theorem takeScan_steady (d : List Byte) (s : State) : Steady s (takeScan d s) := by
  unfold takeScan; split
  · split
    · exact .refl s
    · exact (request_steady _ s).trans ((Steady.of_link (hostWrite_frame _ _ _)).trans
        (.of_link (hostWrite_frame _ _ _)))
  · exact .refl s

theorem execRequestSectionReadDone_keepsJob (c : CompletedRead) (s : State) :
    KeepsJob s (execRequestSectionReadDone c s) := by
  have hc := takeCompletion_steady c.origin .requestSection s
  unfold execRequestSectionReadDone
  simp only []
  split
  · exact .steady (hc.trans (takeScan_steady _ _))
  · exact .steady hc

theorem execUnknownRequest_keepsJob (s : State) : KeepsJob s (execUnknownRequest s) := by
  unfold execUnknownRequest; split
  · exact .steady (finishCode_steady _ _ s)
  · exact .refl s

theorem serveLoadJob_steady (s : State) : Steady s (serveLoadJob s) := by
  unfold serveLoadJob; split
  · split
    · exact request_steady none s
    · exact (Steady.of_link (issueRead_frame _ _ s)).trans (setPhase_steady _ _)
  · exact finishCode_steady _ _ s

theorem takeProfile_inRange (p : Profile) {s : State} (h : JobInRange s) :
    JobInRange (takeProfile p s) := by
  unfold takeProfile; split
  · exact (finishCode_steady _ _ s).inRange h
  · next hv =>
    refine (finishCode_steady _ _ _).inRange ?_
    refine (Steady.trans ?_ (.of_link (raise_frame .lineState _))).inRange (initJobState_inRange hv s)
    exact .of_link (writeStatus_frame _)

theorem execProfileReadDone_keepsJob (c : CompletedRead) (s : State) :
    KeepsJob s (execProfileReadDone c s) := by
  have hc := takeCompletion_steady c.origin .profile s
  unfold execProfileReadDone
  simp only []
  split
  · exact .next fun h => takeProfile_inRange _ (hc.inRange h)
  · exact .steady hc

/-! ## Requests to the units -/

theorem bypassedBy_range (e : Station) : StationInRange e.bypassedBy :=
  ⟨by simp [Station.bypassedBy], by simp [Station.bypassedBy]⟩

theorem returned_range (e : Station) : StationInRange e.returned :=
  ⟨by simp [Station.returned], by simp [Station.returned]⟩

theorem setMode_range (e : Station) (b : Bool) (h : StationInRange e) :
    StationInRange (setMode e b).2 := by
  unfold setMode; split
  · exact h
  · exact bypassedBy_range e
  · split
    · exact returned_range e
    · exact h
  · exact h
  · exact h
  · exact bypassedBy_range e
  · exact h

theorem serveSetStation_steady (r : Request) (s : State) : Steady s (serveSetStation r s) := by
  unfold serveSetStation; split
  · exact finishFree_steady _ s
  · next n _ =>
    simp only []
    split
    · exact finishCode_steady _ _ s
    · split
      · exact finishCode_steady _ _ s
      · split
        · exact finishCode_steady _ _ s
        · next e _ hm =>
          refine (setStation_steady n _ s fun h => ?_).trans (finishCode_steady _ _ _)
          have := setMode_range _ (decide (r.param1 = 1)) h
          rwa [hm] at this

theorem serveClearStation_steady (r : Request) (s : State) : Steady s (serveClearStation r s) := by
  unfold serveClearStation; split
  · exact finishFree_steady _ s
  · split
    · exact finishCode_steady _ _ s
    · unfold clearStation
      simp only []
      split
      · exact finishFree_steady _ s
      · split
        · exact finishCode_steady _ _ s
        · split
          · exact finishCode_steady _ _ s
          · exact (setStation_steady _ _ s fun _ => returned_range _).trans (finishCode_steady _ _ _)

/-- The thickness of a station is none of its counts. -/
theorem thickness_steady (n : Fin 12) (t : Nat) (s : State) : Steady s { s with
    stations := s.stations.set n.val { s.stations.get n with thickness := t } n.isLt } := by
  refine .of_units rfl rfl Iff.rfl { stations := fun h m => ?_ }
  have hm := h m
  rw [Vector.get_eq_getElem] at hm ⊢
  by_cases e : n.val = m.val
  · simpa [e, Vector.get_eq_getElem, StationInRange] using hm
  · simpa [e] using hm

theorem serveSetThickness_steady (r : Request) (s : State) : Steady s (serveSetThickness r s) := by
  unfold serveSetThickness; split
  · split
    · exact finishFree_steady _ s
    · unfold changeThickness
      simp only []
      split
      · exact finishFree_steady _ s
      · exact (thickness_steady _ _ s).trans (finishCode_steady _ _ _)
  · exact finishFree_steady _ s

theorem serveCalibrate_steady (s : State) : Steady s (serveCalibrate s) := by
  unfold serveCalibrate; split
  · exact finishCode_steady _ _ s
  · exact (setGauge_keeps keeps_steady { s.gauge with state := .calibrating } s fun h => h).trans
      (finishCode_steady _ _ _)

theorem selectHead_steady (h : Head) (s : State) : Steady s (selectHead h s) := by
  unfold selectHead
  simp only []
  split
  · refine Steady.trans ?_ (finishCode_steady _ _ _)
    unfold switchHeads
    refine Steady.trans ?_ (refreshHolds_steady _)
    refine Steady.trans ?_ (setHead_keeps keeps_steady h _ _ fun k => k)
    exact keeps_steady.applyIf fun _ => setHead_keeps keeps_steady _ _ s fun k => k
  · exact finishCode_steady _ _ s

theorem restoreHead_steady (h : Head) (s : State) : Steady s (restoreHead h s) := by
  unfold restoreHead
  simp only []
  split
  · refine Steady.trans ?_ (finishCode_steady _ _ _)
    exact (setHead_keeps keeps_steady h _ s fun _ => ⟨by simp, by simp⟩).trans
      (refreshHolds_steady _)
  · exact finishCode_steady _ _ s

theorem serveHead_steady {serve : Head → State → State} (r : Request) (s : State)
    (h : ∀ d, Steady s (serve d s)) : Steady s (serveHead serve r s) := by
  unfold serveHead; split
  · exact finishFree_steady _ s
  · split
    · exact finishCode_steady _ _ s
    · split
      · exact h _
      · exact finishFree_steady _ s

theorem writeSnapshot_steady (c : Counters) (s : State) : Steady s (writeSnapshot c s) := by
  unfold writeSnapshot
  simp only []
  refine Steady.trans ?_ (.of_link (statusWrite_frame _ _ _))
  refine Steady.trans ?_ (.of_link (statusWrite_frame _ _ _))
  refine Steady.trans ?_ (.of_link (statusWrite_frame _ _ _))
  exact (Steady.of_link (statusWrite_frame _ _ s)).trans (.of_link (statusWrite_frame _ _ _))

theorem serveSnapshot_steady (s : State) : Steady s (serveSnapshot s) := by
  unfold serveSnapshot; split
  · exact finishCode_steady _ _ s
  · refine Steady.trans ?_ (finish_steady _ _ _)
    refine Steady.trans ?_ (writeSnapshot_steady _ _)
    exact .of_same rfl rfl rfl rfl rfl rfl rfl rfl

/-! ## Every command -/

/-- Every command keeps the job in range. -/
theorem exec_keepsJob (c : Instr) (s : State) : KeepsJob s (exec c s) := by
  cases c with
  | powerOn => exact .next fun _ => powerOnState_inRange s
  | softReset _ => exact .next fun _ => softResetState_inRange s
  | enable b => exact .steady (writeEnable_steady b s)
  | attentionClear v => exact .steady (clearAttention_steady v s)
  | anchorWrite b v => exact .steady (writeAnchor_steady b v s)
  | registerWrite o v => exact .next (writeRegister_inRange o v)
  | forwardCount =>
    show KeepsJob s (execForwardCount s)
    unfold execForwardCount; split
    · exact .refl s
    · next hp => exact .next (forwardStep_inRange hp)
  | reverseCount =>
    show KeepsJob s (execReverseCount s)
    unfold execReverseCount; split
    · exact .refl s
    · exact .next (reverseStep_inRange _)
  | pitchEvent input order => exact execPitchEvent_keepsJob input order s
  | tailWindowExpiry => exact execTailWindowExpiry_keepsJob s
  | purgeEnd h => exact execPurgeEnd_keepsJob h s
  | pick a tag r b => exact execPick_keepsJob a tag r b s
  | stateMessage a c t b => exact execStateMessage_keepsJob a c t b s
  | silenceTimeout a => exact execSilenceTimeout_keepsJob a s
  | stalenessTimeout => exact execStalenessTimeout_keepsJob s
  | filmCount b => exact execFilmCount_keepsJob b s
  | done h tag b => exact execDone_keepsJob h tag b s
  | headError h tag b => exact execHeadError_keepsJob h tag b s
  | read tag j w c x y => exact execRead_keepsJob tag j w c x y s
  | noread tag b => exact execNoread_keepsJob tag b s
  | stackerReadyChange b => exact .steady (setStackerReady_steady b s)
  | stackerPulseEnd => exact .steady (endPulse_steady s)
  | guardChange b => exact .steady (setGuard_steady b s)
  | driveReadyChange b => exact .steady (setDriveReady_steady b s)
  | drainEnd => exact .steady (drainEndTest_keeps keeps_steady s)
  | fileEnd => exact execFileEnd_keepsJob s
  | jobComplete => exact execJobComplete_keepsJob s
  | bundleClose w => exact execBundleClose_keepsJob w s
  | pageClose => exact execPageClose_keepsJob s
  | fetchStart => exact .steady (keeps_steady.fetcher (fetchStep_frame s))
  | linkPoll => exact .steady (pollLink_steady s)
  | linkReadDone c => exact execLinkReadDone_keepsJob c s
  | headerReadDone c => exact execHeaderReadDone_keepsJob c s
  | recordsReadDone c => exact execRecordsReadDone_keepsJob c s
  | readErrorCompletion f =>
    show KeepsJob s (execReadErrorCompletion f s)
    unfold execReadErrorCompletion; split
    · exact .steady (accessFailure_steady s)
    · exact .refl s
  | readTimeout k =>
    show KeepsJob s (execReadTimeout k s)
    unfold execReadTimeout; split
    · exact .steady (accessFailure_steady s)
    · exact .refl s
  | pcieLinkInactive => exact .steady (loseLink_steady s)
  | scanTimer => exact .steady (scan_steady s)
  | unknownRequest => exact execUnknownRequest_keepsJob s
  | loadJob => exact .handed fun _ => .steady (serveLoadJob_steady s)
  | profileReadDone c => exact execProfileReadDone_keepsJob c s
  | start => exact .handed fun _ => .steady (serveStart_steady s)
  | pause => exact .handed fun _ => .steady (servePause_steady s)
  | drain => exact .handed fun _ => .steady (serveDrain_steady s)
  | clearHalt => exact .handed fun _ => .steady (serveClearHalt_steady s)
  | abortJob => exact .handed fun _ => .next serveAbort_inRange
  | retryPage => exact .handed fun _ => .steady (serveFetcher_steady s fun p => serveRetry_steady p s)
  | skipPage => exact .handed fun _ => .steady (serveFetcher_steady s fun p => serveSkip_steady p s)
  | setStation => exact .handed fun r => .steady (serveSetStation_steady r s)
  | clearStation => exact .handed fun r => .steady (serveClearStation_steady r s)
  | setThickness => exact .handed fun r => .steady (serveSetThickness_steady r s)
  | calibrateGauge => exact .handed fun _ => .steady (serveCalibrate_steady s)
  | selectHead => exact .handed fun r => .steady (serveHead_steady r s fun d => selectHead_steady d s)
  | restoreHead => exact .handed fun r => .steady (serveHead_steady r s fun d => restoreHead_steady d s)
  | snapshot => exact .handed fun _ => .steady (serveSnapshot_steady s)
  | statusRefresh =>
    exact .steady (keeps_steady.applyIf fun _ => .of_link (writeTotals_frame s))
  | requestSectionReadDone c => exact execRequestSectionReadDone_keepsJob c s
  | pcieLinkActive => exact .steady (gainLink_steady s)
  | interruptAddressConfig a => exact .steady (.of_same rfl rfl rfl rfl rfl rfl rfl rfl)

/-- Settles O8: each command is steady, or is a count, the fill of a pitch event, or the begin or the end
of a job, each with its own ranges. -/
theorem everyStepKeepsTheJobInRange : Obligations.EveryStepKeepsTheJobInRange := by
  intro s t hl ht hc h
  unfold step at h
  split at h
  · cases h; exact ⟨hl, ht, hc⟩
  · exact exec_keepsJob _ _ t h ⟨hl, ht, hc⟩

end Sys2Proof.Machine
end

section
/-! Faults and halts on the table: what a fault, the SUSPECT marking and a halt entry leave of each pocket,
and the line outside RUNNING and DRAINING. -/

namespace Sys2Proof.Machine

/-! ## The records but for their references -/

/-- A pocket's record without its reference, which a freed context takes away (R14). -/
def Pocket.core (k : Pocket) : Pocket := { k with subscriber := none }

/-- Every pocket's record is the same but for its reference. -/
def SameCores (s t : State) : Prop :=
  ∀ j, (t.track.pocketAt j).map Pocket.core = (s.track.pocketAt j).map Pocket.core

theorem SameCores.trans {s t u : State} (h : SameCores s t) (k : SameCores t u) : SameCores s u :=
  fun j => (k j).trans (h j)

theorem SameCores.of_track {s t : State} (h : t.track = s.track) : SameCores s t :=
  fun j => by rw [h]

/-- What a record that differs at most in its reference says of the pocket. -/
theorem SameCores.there {s t : State} (h : SameCores s t) {j : Nat} {k : Pocket}
    (hk : s.track.pocketAt j = some k) : ∃ q, t.track.pocketAt j = some q ∧ q.core = k.core := by
  have := h j
  rw [hk] at this
  exact Option.map_eq_some_iff.mp this

theorem freeContext_cores (i : Nat) (s : State) : SameCores s (freeContext i s) := by
  intro j
  rw [freeContext_at, Option.map_map]
  congr 1
  funext k
  simp only [Function.comp, Pocket.dropReference]
  split <;> rfl

theorem resolutionTest_track (n : Nat) (w : Word) (s : State) :
    (resolutionTest n w s).track = s.track := by simp

theorem failSubscriber_cores (i : Nat) (c : Context) (w : Word) (s : State) :
    SameCores s (failSubscriber i c w s) := by
  unfold failSubscriber applyIf
  simp only []
  split
  · refine SameCores.trans ?_ (.of_track (resolutionTest_track _ _ _))
    exact SameCores.trans (.of_track (by simp)) (freeContext_cores i _)
  · exact SameCores.trans (.of_track (by simp)) (freeContext_cores i _)

theorem queueRemake_track (i : Nat) (c : Context) (w : Word) (s : State) :
    (queueRemake i c w s).track = s.track := by
  unfold queueRemake
  cases c.sort <;> simp

/-- A first fault makes the one pocket FAULTED, and frees at most its context (R136). -/
theorem firstFault_cores (i : Nat) (k : Pocket) (f : PocketFault) (s : State) :
    SameCores (setPocket i { k with state := .faulted, fault := some f } s) (firstFault i k f s) := by
  unfold firstFault
  simp only []
  split
  · exact .of_track (by simp)
  · split
    · exact .of_track (by simp [queueRemake_track])
    · refine SameCores.trans ?_ (failSubscriber_cores _ _ _ _)
      exact .of_track (by simp)

/-- A fault handed over for a LIVE pocket makes it FAULTED (R136). -/
theorem handFault_live {i : Nat} {k : Pocket} {s : State} (hk : s.track.pocketAt i = some k)
    (hl : k.state = .live) (c : FaultCause) (n : Option (Fin 12)) (b : Bool) :
    SameCores (setPocket i
        { k with state := .faulted, fault := some { cause := c, station := n, suspect := b } } s)
      (handFault i c n b s) := by
  unfold handFault
  simp only [hk, hl]
  exact firstFault_cores _ _ _ _

/-- A fault handed over for a FAULTED pocket is only counted (R140). -/
theorem handFault_faulted {i : Nat} {k : Pocket} {s : State} (hk : s.track.pocketAt i = some k)
    (hf : k.state = .faulted) (c : FaultCause) (n : Option (Fin 12)) (b : Bool) :
    handFault i c n b s = bump .laterFaults s := by
  unfold handFault
  simp only [hk, hf]

/-! ## The SUSPECT marking -/

/-- The record that the SUSPECT marking leaves of a pocket (R147). -/
def Pocket.suspected (k : Pocket) : Pocket :=
  if k.state = .live then
    { k with state := .faulted, fault := some { cause := .suspect, station := none, suspect := true } }
  else k

theorem Pocket.suspected_suspected (k : Pocket) : k.suspected.suspected = k.suspected := by
  by_cases h : k.state = .live <;> simp [Pocket.suspected, h]

theorem Pocket.core_suspected (k : Pocket) : k.suspected.core = k.core.suspected := by
  by_cases h : k.state = .live <;> simp [Pocket.suspected, Pocket.core, h]

/-- The record of an entry after the marking of the entries `marks`. -/
def suspectedIn (marks : List Nat) (j : Nat) (e : Option Pocket) : Option Pocket :=
  if j ∈ marks then (e.map Pocket.core).map Pocket.suspected else e.map Pocket.core

theorem markSuspect_cores (p : Profile) (s : State) (n j : Nat) :
    ((markSuspect p s n).track.pocketAt j).map Pocket.core =
      suspectedIn [entryIndex p n s] j (s.track.pocketAt j) := by
  unfold markSuspect suspectedIn
  simp only [List.mem_singleton]
  cases hk : s.track.pocketAt (entryIndex p n s) with
  | none => by_cases h : j = entryIndex p n s <;> simp [h, hk]
  | some k =>
    simp only []
    by_cases hl : k.state = .live
    · have hc := handFault_live (s := bump .suspectFaults s) (by simpa using hk) hl .suspect none true
      rw [if_pos hl, hc j]
      by_cases h : j = entryIndex p n s
      · rw [h, setPocket_there (by simpa using hk), hk]
        simp [Pocket.core, Pocket.suspected, hl]
      · rw [setPocket_elsewhere h]; simp [h]
    · rw [if_neg hl]
      by_cases h : j = entryIndex p n s
      · simp [h, hk, Pocket.core, Pocket.suspected, hl]
      · simp [h]

/-- The marking of a list of positions marks just their entries. -/
theorem markAll_cores (p : Profile) (l : List Nat) (s : State) (j : Nat) :
    ((l.foldl (markSuspect p) s).track.pocketAt j).map Pocket.core =
      suspectedIn (l.map fun n => entryIndex p n s) j (s.track.pocketAt j) := by
  induction l generalizing s with
  | nil => simp [suspectedIn]
  | cons n l ih =>
    obtain ⟨-, -, -, hbase, -⟩ := (markSuspect_steady p s n).chain
    have hidx : (fun m => entryIndex p m (markSuspect p s n)) = fun m => entryIndex p m s := by
      funext m; simp [entryIndex, hbase]
    have hm := markSuspect_cores p s n j
    rw [List.foldl_cons, ih, hidx, List.map_cons]
    simp only [suspectedIn, hm, List.mem_cons, List.not_mem_nil, or_false]
    by_cases h1 : j = entryIndex p n s <;> by_cases h2 : j ∈ l.map fun n => entryIndex p n s <;>
      simp [h1, h2, Function.comp_def, Pocket.suspected_suspected]

/-! ## The line outside RUNNING and DRAINING -/

/-- Outside RUNNING and DRAINING the line record stays; the queue stays, and the Remake List only grows at
its tail. -/
def Coasts (s t : State) : Prop :=
  (s.line.state ≠ .running → s.line.state ≠ .draining → t.line = s.line) ∧
  t.staging = s.staging ∧ ∃ made, t.remakes = s.remakes ++ made

theorem Coasts.trans {s t u : State} (h : Coasts s t) (k : Coasts t u) : Coasts s u := by
  obtain ⟨hl, hs, m, hm⟩ := h
  obtain ⟨kl, ks, n, hn⟩ := k
  refine ⟨fun h1 h2 => ?_, ks.trans hs, m ++ n, by rw [hn, hm, List.append_assoc]⟩
  have e := hl h1 h2
  rw [kl (by rw [e]; exact h1) (by rw [e]; exact h2), e]

theorem keeps_coasts : Keeps Coasts where
  trans := .trans
  units := fun _ hs _ hr hl _ => ⟨fun _ _ => hl, hs, [], by rw [hr, List.append_nil]⟩
  stops := fun l s h _ => ⟨fun h1 h2 => absurd h (by simp [h1, h2]), by simp, [], by simp⟩
  pocket := fun _ _ _ _ => ⟨fun _ _ => rfl, rfl, [], by simp⟩
  frees := fun _ _ => ⟨fun _ _ => rfl, rfl, [], by simp⟩
  queues := fun r _ => ⟨fun _ _ => rfl, rfl, [r], rfl⟩

theorem markSuspect_coasts (p : Profile) (s : State) (n : Nat) : Coasts s (markSuspect p s n) := by
  unfold markSuspect
  simp only []
  split
  · exact keeps_coasts.refl s
  · split
    · exact (keeps_coasts.link (bump_frame .suspectFaults s)).trans
        (handFault_keeps keeps_coasts _ _ _ _ _)
    · exact keeps_coasts.refl s

/-! ## Halt entry -/

/-- The state in which the SUSPECT marking of a halt entry is made (R176, steps 1 to 3). -/
def haltedState (c : HaltCause) (s : State) : State :=
  refreshHolds (setLine { s.line with state := .halted, drain := none, halt := c, runEnable := false,
                                      quickStop := true } (bump .halts s))

@[simp] theorem haltedState_track (c : HaltCause) (s : State) :
    (haltedState c s).track = s.track := by simp [haltedState]

theorem haltedState_halted (c : HaltCause) (s : State) : Halted c s (haltedState c s) := by
  simp [haltedState, Halted]

theorem suspectMarking_halted {p : Profile} (c : HaltCause) {s : State} (h : s.job = some p) :
    suspectMarking (haltedState c s) =
      (List.range p.rejectPos).reverse.foldl (markSuspect p) (haltedState c s) := by
  have hp := profile_of_job h
  have hj : (haltedState c s).job = some p := by
    simp [State.job, haltedState, hp]
  unfold suspectMarking
  rw [hj]

/-- The table and the line record of a halt entry are those that the SUSPECT marking leaves. -/
theorem haltEntry_rest (c : HaltCause) (s : State) :
    (haltEntry c s).track = (suspectMarking (haltedState c s)).track ∧
    (haltEntry c s).line = (suspectMarking (haltedState c s)).line ∧
    (haltEntry c s).print.window = [] := by
  simp [haltEntry, haltedState]

theorem haltEntry_halted {p : Profile} (c : HaltCause) {s : State} (h : s.job = some p) :
    Halted c s (haltEntry c s) := by
  obtain ⟨-, hl, -⟩ := haltEntry_rest c s
  have hh := haltedState_halted c s
  have hk := keeps_coasts.foldl _ (markSuspect_coasts p) (List.range p.rejectPos).reverse
    (haltedState c s)
  unfold Halted at hh ⊢
  rw [hl, suspectMarking_halted c h, hk.1 (by simp [hh]) (by simp [hh]), hh]

/-- A halt entry marks the LIVE pockets below REJECT, and leaves every other record but for its reference
(R147). -/
theorem haltEntry_cores {p : Profile} (c : HaltCause) {s : State} (h : s.job = some p) (j : Nat) :
    ((haltEntry c s).track.pocketAt j).map Pocket.core =
      suspectedIn ((List.range p.rejectPos).reverse.map fun n => entryIndex p n s) j
        (s.track.pocketAt j) := by
  have hidx : (fun n => entryIndex p n (haltedState c s)) = fun n => entryIndex p n s := by
    funext n; simp [entryIndex]
  rw [(haltEntry_rest c s).1, suspectMarking_halted c h, markAll_cores, hidx, haltedState_track]

/-- A pocket after a halt entry: the record it had, marked where its entry was (R147). -/
theorem haltEntry_there {p : Profile} {c : HaltCause} {s : State} (h : s.job = some p) {j : Nat}
    {q : Pocket} (hq : (haltEntry c s).track.pocketAt j = some q) :
    ∃ k, s.track.pocketAt j = some k ∧
      (q.core = k.suspected.core ∧ (∃ n < p.rejectPos, j = entryIndex p n s) ∨
        q.core = k.core ∧ ∀ n < p.rejectPos, j ≠ entryIndex p n s) := by
  have hc := haltEntry_cores c h j
  rw [hq, suspectedIn] at hc
  split at hc
  · next hm =>
    obtain ⟨k', hk', e⟩ := Option.map_eq_some_iff.mp hc.symm
    obtain ⟨k, hk, rfl⟩ := Option.map_eq_some_iff.mp hk'
    refine ⟨k, hk, .inl ⟨by rw [← e, Pocket.core_suspected], ?_⟩⟩
    obtain ⟨n, hn, e⟩ := List.mem_map.mp hm
    exact ⟨n, by simpa using hn, e.symm⟩
  · next hm =>
    obtain ⟨k, hk, e⟩ := Option.map_eq_some_iff.mp hc.symm
    refine ⟨k, hk, .inr ⟨e.symm, fun n hn e => hm ?_⟩⟩
    exact List.mem_map.mpr ⟨n, by simpa using hn, e.symm⟩

/-- A marked pocket is not LIVE. -/
theorem Pocket.suspected_not_live (k : Pocket) : k.suspected.state ≠ .live := by
  by_cases h : k.state = .live <;> simp [Pocket.suspected, h]

theorem Pocket.state_of_core {k q : Pocket} (h : q.core = k.core) : q.state = k.state :=
  show q.core.state = k.core.state by rw [h]

theorem Pocket.fault_of_core {k q : Pocket} (h : q.core = k.core) : q.fault = k.fault :=
  show q.core.fault = k.core.fault by rw [h]

/-- Below REJECT no pocket is LIVE after a halt entry (R147). -/
theorem haltEntry_no_live {p : Profile} {c : HaltCause} {s : State} (h : s.job = some p) {n : Nat}
    (hn : n < p.rejectPos) {q : Pocket}
    (hq : (haltEntry c s).track.pocketAt (entryIndex p n s) = some q) : q.state ≠ .live := by
  obtain ⟨k, -, ⟨hc, -⟩ | ⟨-, ho⟩⟩ := haltEntry_there h hq
  · rw [Pocket.state_of_core hc]; exact k.suspected_not_live
  · exact absurd rfl (ho n hn)

/-- Two positions of a table have two entries. -/
theorem entryIndex_injective {p : Profile} {s : State} {m n : Nat} (hm : m < p.trackLen)
    (hn : n < p.trackLen) (h : entryIndex p m s = entryIndex p n s) : m = n := by
  have := Nat.ModEq.add_left_cancel' s.track.base
    (show s.track.base + m ≡ s.track.base + n [MOD p.trackLen] from h)
  rwa [Nat.ModEq, Nat.mod_eq_of_lt hm, Nat.mod_eq_of_lt hn] at this

/-- A halt cause that the line takes is a halt entry (R176). -/
theorem raiseHalt_takes (c : HaltCause) {s : State} (h : TakesHalt s) :
    raiseHalt c s = haltEntry c s := by
  obtain ⟨h1, h2, h3⟩ := h
  unfold raiseHalt
  split
  · next e => exact absurd e h1
  · next e => exact absurd e h2
  · rw [if_neg (by simp [h3])]

/-- A halt cause that the line does not take changes nothing (R176, R180). -/
theorem raiseHalt_refused (c : HaltCause) {s : State} (h : ¬ TakesHalt s) : raiseHalt c s = s := by
  unfold raiseHalt
  split
  · rfl
  · rfl
  · next h1 h2 =>
    rw [if_pos]
    by_contra ha
    exact h ⟨h1, h2, by simpa using ha⟩

/-- The positions are where they were (R23). -/
theorem haltEntry_position (p : Profile) (c : HaltCause) {s : State} (h : s.line.state ≠ .idle)
    (n : Nat) : ((haltEntry c s).track.base + n) % p.trackLen = entryIndex p n s := by
  obtain ⟨-, -, -, hbase, -⟩ := (haltEntry_steady c s h).chain
  rw [hbase, entryIndex]

theorem haltEntry_stays (c : HaltCause) {s : State} (h : s.line.state ≠ .idle) {j : Nat}
    {k : Pocket} (hk : s.track.pocketAt j = some k) :
    ∃ q, (haltEntry c s).track.pocketAt j = some q := by
  have := (haltEntry_steady c s h).serials j
  rw [hk] at this
  obtain ⟨q, hq, -⟩ := Option.map_eq_some_iff.mp this
  exact ⟨q, hq⟩

/-- At or beyond REJECT, or not LIVE, a pocket keeps its state (R147). -/
theorem haltEntry_state {p : Profile} (c : HaltCause) {s : State} (hj : s.job = some p)
    (h : s.line.state ≠ .idle) (hr : p.rejectPos < p.trackLen) {n : Nat} (hn : n < p.trackLen)
    {k : Pocket} (hk : s.track.pocketAt (entryIndex p n s) = some k)
    (hor : p.rejectPos ≤ n ∨ k.state ≠ .live) :
    ((haltEntry c s).track.pocketAt (entryIndex p n s)).map (·.state) = some k.state := by
  obtain ⟨q, hq⟩ := haltEntry_stays c h hk
  rw [hq, Option.map_some]
  refine congrArg some ?_
  obtain ⟨k', hk', hcase⟩ := haltEntry_there hj hq
  obtain rfl : k' = k := Option.some.inj (hk'.symm.trans hk)
  rcases hcase with ⟨hc, m, hm, e⟩ | ⟨hc, -⟩
  · have hmn : n = m := entryIndex_injective hn (hm.trans hr) e
    have hnl : k'.state ≠ .live := by
      rcases hor with hor | hor
      · omega
      · exact hor
    rw [Pocket.state_of_core hc, Pocket.suspected, if_neg hnl]
  · exact Pocket.state_of_core hc

/-- A LIVE pocket below REJECT is FAULTED as SUSPECT (R147). -/
theorem haltEntry_marked {p : Profile} (c : HaltCause) {s : State} (hj : s.job = some p)
    (h : s.line.state ≠ .idle) {n : Nat} (hn : n < p.rejectPos) {k : Pocket}
    (hk : s.track.pocketAt (entryIndex p n s) = some k) (hl : k.state = .live) :
    ∃ q, (haltEntry c s).track.pocketAt (entryIndex p n s) = some q ∧ q.state = .faulted ∧
      q.fault = some { cause := .suspect, station := none, suspect := true } := by
  obtain ⟨q, hq⟩ := haltEntry_stays c h hk
  obtain ⟨k', hk', hcase⟩ := haltEntry_there hj hq
  obtain rfl : k' = k := Option.some.inj (hk'.symm.trans hk)
  rcases hcase with ⟨hc, -⟩ | ⟨-, ho⟩
  · refine ⟨q, hq, ?_, ?_⟩
    · rw [Pocket.state_of_core hc, Pocket.suspected, if_pos hl]
    · rw [Pocket.fault_of_core hc, Pocket.suspected, if_pos hl]
  · exact absurd rfl (ho n hn)

/-- Settles O40: the SUSPECT marking makes each LIVE pocket below REJECT FAULTED and touches no other
record but for a reference. -/
theorem haltLeavesNoLivePocketUpstream : Obligations.HaltLeavesNoLivePocketUpstream := by
  unfold Obligations.HaltLeavesNoLivePocketUpstream
  intro p c s hj ht _ _ hr
  obtain ⟨hidle, -, -⟩ := ht
  have st := haltEntry_steady c s hidle
  obtain ⟨-, -, hwindow⟩ := haltEntry_rest c s
  have hidx := haltEntry_position p c hidle
  have hat (n : Nat) : (s.track.base + n) % p.trackLen = entryIndex p n s := rfl
  simp only [hidx, hat]
  exact ⟨haltEntry_halted c hj, st.chain, st.pockets, hwindow,
    fun n hn q hq => haltEntry_no_live hj hn hq,
    fun n hn k hk hor => haltEntry_state c hj hidle hr hn hk hor,
    fun n hn k hk hl => haltEntry_marked c hj hidle hn hk hl⟩

end Sys2Proof.Machine
end

section
/-! The resets and the counts of the encoder (R1 to R4, R192). -/

namespace Sys2Proof.Machine

/-! ## The resets -/

/-- Settles O3: the two resets are State.reset but for what stands outside the part. -/
theorem resetsReturnEveryBlock : Obligations.ResetsReturnEveryBlock := by
  unfold Obligations.ResetsReturnEveryBlock
  refine ⟨⟨⟨rfl, rfl, rfl, rfl⟩, ⟨rfl, rfl, rfl, rfl, fun i => ?_⟩, ⟨rfl, rfl, rfl, fun i => ?_⟩,
    ⟨rfl, rfl⟩, fun n => ?_, ⟨rfl, rfl, rfl⟩, fun h => ?_, ⟨rfl, rfl⟩, ⟨rfl, rfl, rfl, rfl, rfl⟩,
    ⟨rfl, rfl, rfl, rfl, rfl, rfl⟩, ⟨rfl, rfl, rfl, rfl, rfl, rfl, rfl⟩, fun i => ?_, fun i => ?_,
    rfl⟩, fun s bit => ⟨⟨_, rfl, rfl⟩, ⟨_, rfl, rfl⟩⟩⟩
  · by_cases h : i < 128 <;> simp [Track.pocketAt, State.reset, Track.reset, h]
  · by_cases h : i < 128 <;> simp [contextAt, State.reset, h]
  · simp [State.reset, Vector.get_eq_getElem, Station.reset]
  · cases h <;> exact ⟨rfl, rfl, rfl, rfl⟩
  · simp [State.reset, Counters.reset, Vector.get_eq_getElem]
  · simp [State.reset, Counters.reset, Vector.get_eq_getElem]

/-- Settles O5: with no job, no page, no bundle and nothing staged each invariant holds of itself. -/
theorem resetMeetsTheInvariants : Obligations.ResetMeetsTheInvariants := by
  have job : JobInRange State.reset :=
    inRange_reset rfl rfl rfl rfl rfl
      (fun n => by simp [State.reset, Vector.get_eq_getElem, StationInRange, Station.reset])
      rfl ⟨by simp [State.reset], by simp [State.reset]⟩
  obtain ⟨loaded, full, counts⟩ := job
  refine ⟨?_, ?_, loaded, full, counts, rfl, ?_, ?_, rfl, ?_, ?_, ?_⟩
  · simp [LineConsistent, State.reset, Line.reset]
  · simp [OneHeadActive, State.reset, PrintUnit.reset, HeadEntry.reset]
  · intro p h; simp [State.reset] at h
  · intro _; exact ⟨rfl, rfl⟩
  · simp [PagesHaveRoom, State.reset, Fetcher.reset, Link.reset, retryingLink]
  · simp [BundleAccounts, State.reset, Fetcher.reset]
  · intro _; rfl

/-! ## Forward counts -/

theorem exec_forwardCount {p : Profile} {s : State} (h : s.job = some p) :
    exec .forwardCount s = .next { s with track := forwardStep p s.track } := by
  show execForwardCount s = _
  rw [execForwardCount, h]

theorem forwardStep_repays {p : Profile} {t : Track} (h : 0 < t.deficit) :
    forwardStep p t = { t with deficit := t.deficit - 1 } := by rw [forwardStep, if_pos h]

theorem forwardStep_raises {p : Profile} {t : Track} (h : t.deficit = 0)
    (k : p.cpp ≤ t.accumulator + 1) :
    forwardStep p t = { t with accumulator := 0, raised := t.raised + 1 } := by
  rw [forwardStep, if_neg (by omega), if_pos k]

theorem forwardStep_adds {p : Profile} {t : Track} (h : t.deficit = 0)
    (k : t.accumulator + 1 < p.cpp) :
    forwardStep p t = { t with accumulator := t.accumulator + 1 } := by
  rw [forwardStep, if_neg (by omega), if_neg (by omega)]

/-- The place of the table and its pockets stay at a forward count. -/
theorem forwardStep_rest (p : Profile) (t : Track) : forwardStep p t = { t with
    accumulator := (forwardStep p t).accumulator, deficit := (forwardStep p t).deficit,
    raised := (forwardStep p t).raised } := by
  unfold forwardStep; split
  · rfl
  · split <;> rfl

/-- Settles O12: the three cases of a forward count. -/
theorem forwardCountStepsTheAccumulator : Obligations.ForwardCountStepsTheAccumulator := by
  unfold Obligations.ForwardCountStepsTheAccumulator
  refine ⟨fun s h => ?_, fun p s h => ⟨_, exec_forwardCount h, ?_, fun hd => ?_, fun hd hc => ?_,
    fun hd hc => ?_⟩⟩
  · show execForwardCount s = _
    rw [execForwardCount, h]
  · exact congrArg (fun t => ({ s with track := t } : State)) (forwardStep_rest p s.track)
  · simp only [forwardStep_repays hd]
    exact ⟨by omega, trivial, trivial⟩
  · simp only [forwardStep_adds hd hc, hd]
    exact ⟨trivial, trivial, trivial⟩
  · simp only [forwardStep_raises hd hc, hd]
    exact ⟨trivial, trivial, trivial⟩

/-! ## Reverse counts -/

/-- The state after a reverse count, before the halt that it may bring (R3). -/
def reversed (s : State) : State :=
  bump .reverseCounts { s with track := { s.track with deficit := deficitAfter s.track.deficit } }

theorem exec_reverseCount {p : Profile} {s : State} (h : s.job = some p) :
    exec .reverseCount s = .next (applyIf (crossesHalf p s.track.deficit
      (deficitAfter s.track.deficit)) (raiseHalt .reverse) (reversed s)) := by
  show execReverseCount s = _
  rw [execReverseCount, h]
  rfl

theorem exec_reverseCount_idle {s : State} (h : s.job = none) :
    exec .reverseCount s = .next s := by
  show execReverseCount s = _
  rw [execReverseCount, h]

/-- What a reverse count changes: the deficit and its counter (R3). -/
@[simp] theorem reversed_fields (s : State) :
    (reversed s).track = { s.track with deficit := deficitAfter s.track.deficit } ∧
    (reversed s).line = s.line ∧ (reversed s).request = s.request ∧ (reversed s).job = s.job :=
  ⟨rfl, rfl, rfl, rfl⟩

theorem reversed_halted {c : HaltCause} {s t : State} (h : Halted c (reversed s) t) :
    Halted c s t := h

theorem reversed_frame {s t : State} (h : SameButHalted t (reversed s)) : SameButHalted t s := h

theorem reversed_eq (s : State) : reversed s = { s with
    track := { s.track with deficit := (reversed s).track.deficit }, counters := (reversed s).counters } :=
  rfl

/-- A count of one counter moves no other. -/
theorem onlyCounted_bump (c : LineCounter) (s : State) : OnlyCounted [c] s (bump c s) := by
  refine ⟨fun d hd => bump_notCounted ?_ s, rfl, rfl⟩
  rintro rfl
  simp at hd

/-- A halt entry leaves a counter that none of its steps counts. -/
theorem raiseHalt_notCounted {c : LineCounter} (h : c ≠ .interrupts) (hc : c ∉ haltCounts)
    (d : HaltCause) (s : State) : NotCounted c s (raiseHalt d s) :=
  raiseHalt_follows (follows_notCounted h) (fun _ m e => hc (e ▸ m)) d s

theorem deficitAfter_eq (d : Nat) : deficitAfter d = if d < 65535 then d + 1 else d := rfl

/-- The halt of a reverse count moves no pocket and leaves the encoder's counts (R23). -/
theorem reversedHalt_steady (b : Bool) (s : State) :
    Steady (reversed s) (applyIf b (raiseHalt .reverse) (reversed s)) :=
  keeps_steady.applyIf fun _ => raiseHalt_steady _ _

/-- Settles O13: the deficit rises at a reverse count and falls at a forward count, and the table stays. -/
theorem reverseCountAddsToTheDeficit : Obligations.ReverseCountAddsToTheDeficit := by
  unfold Obligations.ReverseCountAddsToTheDeficit
  intro p s h
  refine ⟨⟨_, exec_reverseCount h, ?_⟩, fun hd => ⟨_, exec_forwardCount h, by
    rw [forwardStep_repays hd]⟩⟩
  generalize crossesHalf p s.track.deficit (deficitAfter s.track.deficit) = b
  have st := reversedHalt_steady b s
  obtain ⟨hacc, hdef, hraised, hbase, hnext⟩ := st.chain
  have counted : Counted .reverseCounts s (reversed s) := bump_counted .reverseCounts _
  refine ⟨by rw [hdef]; exact deficitAfter_eq _, hacc, hraised, hbase, hnext,
    fun i => st.pockets i, counted.before ?_⟩
  unfold applyIf; split
  · exact raiseHalt_notCounted (by decide) (by decide) _ _
  · exact .refl _ _

/-- CLEAR_HALT leaves the track (R4, R178). -/
theorem clearHalt_track {s t : State} (h : exec .clearHalt s = .next t) : t.track = s.track := by
  have h : execClearHalt s = .next t := h
  unfold execClearHalt at h
  split at h
  · cases h; rfl
  · cases h
    unfold serveClearHalt
    split
    · obtain ⟨-, -, -, -, htrack, -⟩ := finishFree_frame .badState s
      exact htrack
    · split
      · split <;> simp
      · simp

/-- A reverse count crosses CPP/2 just where the deficit goes from at or below it to above it (R4). -/
theorem crossesHalf_iff (p : Profile) (d : Nat) : crossesHalf p d (deficitAfter d) = true ↔
    2 * d ≤ p.cpp ∧ p.cpp < 2 * (d + 1) ∧ d < 65535 := by
  rw [crossesHalf, Bool.and_eq_true, decide_eq_true_eq, decide_eq_true_eq, deficitAfter_eq]
  by_cases h : d < 65535
  · rw [if_pos h]; omega
  · rw [if_neg h]; omega

/-- The crossing count halts a line that takes the cause (R4). -/
theorem reverse_halts {p : Profile} {s : State} (hj : s.job = some p) (ht : TakesHalt s) :
    let t := haltEntry .reverse (reversed s)
    Halted .reverse s t ∧ t.track.deficit = deficitAfter s.track.deficit ∧
      (∀ n < p.rejectPos, ∀ k, t.track.pocketAt ((t.track.base + n) % p.trackLen) = some k →
        k.state ≠ .live) ∧ SameButHalted t s := by
  obtain ⟨hidle, -, -⟩ := ht
  have hj' : (reversed s).job = some p := hj
  have hi' : (reversed s).line.state ≠ .idle := hidle
  refine ⟨reversed_halted (haltEntry_halted .reverse hj'), (haltEntry_steady .reverse _ hi').deficit,
    fun n hn k hk => ?_, ?_⟩
  · rw [haltEntry_position p .reverse hi'] at hk
    exact haltEntry_no_live hj' hn hk
  · exact reversed_frame (haltEntry_frame .reverse (reversed s))

/-- Settles O14: the crossing count is a halt entry, and any other count stays one. -/
theorem reverseCrossingHalts : Obligations.ReverseCrossingHalts := by
  unfold Obligations.ReverseCrossingHalts
  refine ⟨fun s => exec_reverseCount_idle, fun p s hj => ⟨_, exec_reverseCount hj, ?_, ?_⟩,
    fun s t => clearHalt_track, fun p s hj hd => ⟨_, exec_forwardCount hj, ?_⟩⟩
  · intro h1 h2 h3 ht
    have ht' : TakesHalt (reversed s) := ht
    rw [applyIf, if_pos ((crossesHalf_iff p _).mpr ⟨h1, h2, h3⟩), raiseHalt_takes .reverse ht']
    obtain ⟨hh, hdef, hlive, hsame⟩ := reverse_halts hj ht
    refine ⟨hh, ?_, fun _ _ => hlive, hsame⟩
    rw [hdef, deficitAfter_eq, if_pos h3]
  · intro hor
    have stays : applyIf (crossesHalf p s.track.deficit (deficitAfter s.track.deficit))
        (raiseHalt .reverse) (reversed s) = reversed s := by
      unfold applyIf; split
      · next hc =>
        obtain ⟨h1, h2, h3⟩ := (crossesHalf_iff p _).mp hc
        refine raiseHalt_refused .reverse (s := reversed s) fun ht => ?_
        rcases hor with h | h | h | h
        · omega
        · omega
        · omega
        · exact h ht
      · rfl
    rw [stays]
    exact ⟨reversed_eq s, onlyCounted_bump .reverseCounts _⟩
  · simp only [forwardStep_repays hd]
    exact ⟨by omega, trivial, trivial⟩

end Sys2Proof.Machine
end

section
/-! The pitch event as a whole (R7, R15 to R18), and the pitch event of a line that coasts (R48). -/

namespace Sys2Proof.Machine

/-! ## The command -/

theorem exec_pitchEvent {p : Profile} {s : State} (input : Int) (order : List PitchPart)
    (hj : s.job = some p) (hr : 0 < s.track.raised) :
    exec (.pitchEvent input order) s = .next (takePitch p (convert input) order s) := by
  show execPitchEvent input order s = _
  rw [execPitchEvent, hj]
  exact if_pos hr

/-- With none raised, and in IDLE, there is no pitch event to take (log 3). -/
theorem exec_pitchEvent_none {s : State} (input : Int) (order : List PitchPart)
    (h : s.job = none ∨ s.track.raised = 0) : exec (.pitchEvent input order) s = .next s := by
  show execPitchEvent input order s = _
  unfold execPitchEvent
  split
  · rfl
  · next p hj =>
    rcases h with h | h
    · simp [h] at hj
    · rw [if_neg (by omega)]

/-- An order that names each part once is taken as asked (log 4). -/
theorem firstOfEach_of_nodup {l : List PitchPart} (h : l.Nodup) : firstOfEach l = l := by
  induction l with
  | nil => rfl
  | cons x l ih =>
    obtain ⟨hx, hl⟩ := List.nodup_cons.mp h
    rw [firstOfEach, ih hl, List.filter_eq_self.mpr]
    intro y hy
    simpa using fun e : y = x => hx (e ▸ hy)

/-- Of a second list only what the first does not name is left. -/
theorem firstOfEach_append (l m : List PitchPart) :
    firstOfEach (l ++ m) = firstOfEach l ++ (firstOfEach m).filter fun y => y ∉ l := by
  induction l with
  | nil => simp [firstOfEach]
  | cons x l ih =>
    rw [List.cons_append, firstOfEach, ih, firstOfEach, List.filter_append, List.filter_filter,
      List.cons_append]
    congr 3
    funext y
    simp [not_or]

/-- A well-formed order names every part once, and so is taken as it is (log 4). -/
theorem partOrder_of_wellFormed {input : Int} {order : List PitchPart}
    (h : (Instr.pitchEvent input order).wellFormed = true) : partOrder order = order := by
  have hp : order.Perm PitchPart.all := List.isPerm_iff.mp h
  have hn : PitchPart.all.Nodup := by decide
  have hmem (y : PitchPart) (hy : y ∈ firstOfEach PitchPart.all) : y ∈ order :=
    hp.mem_iff.mpr ((mem_firstOfEach y _).mp hy)
  rw [partOrder, firstOfEach_append, firstOfEach_of_nodup (hp.nodup_iff.mpr hn),
    List.filter_eq_nil_iff.mpr (by simpa using hmem), List.append_nil]

/-! ## What the parts keep together -/

/-- Any part keeps the units' counts in their ranges and the place of the table. -/
theorem takePart_units {p : Profile} (t : Track) {reading : Nat} (hr : reading ≤ 4095)
    (hl : p.trackLen ≤ 128) {s : State} (hb : s.track.base < p.trackLen) (x : PitchPart) :
    UnitsKept s (takePart p t reading s x) ∧
      (takePart p t reading s x).track.base = s.track.base := by
  by_cases hx : x = .fill
  · subst hx
    have f := takeFill_fills hb hl
    exact ⟨f.units, f.base⟩
  · have k := takePart_keeps keeps_steady p t hr s hx
    exact ⟨k.units, k.base⟩

theorem takeParts_units {p : Profile} (t : Track) {reading : Nat} (hr : reading ≤ 4095)
    (hl : p.trackLen ≤ 128) (l : List PitchPart) {s : State} (hb : s.track.base < p.trackLen) :
    UnitsKept s (l.foldl (takePart p t reading) s) := by
  induction l generalizing s with
  | nil => exact .of_same rfl rfl rfl rfl rfl
  | cons x l ih =>
    obtain ⟨hu, hbase⟩ := takePart_units t hr hl hb x
    exact hu.trans (ih (by rw [hbase]; exact hb))

theorem takeParts_base {p : Profile} (t : Track) {reading : Nat} (hr : reading ≤ 4095)
    (hl : p.trackLen ≤ 128) (l : List PitchPart) {s : State} (hb : s.track.base < p.trackLen) :
    (l.foldl (takePart p t reading) s).track.base = s.track.base := by
  induction l generalizing s with
  | nil => rfl
  | cons x l ih =>
    obtain ⟨-, hbase⟩ := takePart_units t hr hl hb x
    rw [List.foldl_cons, ih (by rw [hbase]; exact hb), hbase]

/-- The film judgement begins a new film count with the mark clear (R124). -/
theorem wrapPart_clear (p : Profile) (t : Track) (s : State) : FilmClear (wrapPart p t s).wrap := by
  unfold wrapPart
  refine UnitsKept.clear (s := { s with wrap := { s.wrap with film := 0, runaway := false } })
    (Steady.units ?_) ⟨rfl, rfl⟩
  refine Steady.trans ?_ (moveFilmRun_keeps keeps_steady _ _ _)
  refine Steady.trans ?_ (sealArrival_keeps keeps_steady _ _ _ _)
  exact keeps_steady.applyIf fun _ => .of_link (bump_frame _ _)

/-- After all the parts the film count is 0 and the runaway mark clear (R124, R127). -/
theorem takeParts_clear {p : Profile} (t : Track) {reading : Nat} (hr : reading ≤ 4095)
    (hl : p.trackLen ≤ 128) (order : List PitchPart) {s : State} (hb : s.track.base < p.trackLen) :
    FilmClear ((partOrder order).foldl (takePart p t reading) s).wrap := by
  obtain ⟨front, back, h⟩ := List.append_of_mem (mem_partOrder order .wrap)
  rw [h, List.foldl_append, List.foldl_cons]
  have hfront : (front.foldl (takePart p t reading) s).track.base < p.trackLen := by
    rw [takeParts_base t hr hl front hb]; exact hb
  refine (takeParts_units t hr hl back ?_).clear (wrapPart_clear p t _)
  rw [(takePart_units t hr hl hfront .wrap).2]; exact hfront

/-- The event, part by part. -/
theorem takePitch_eq (p : Profile) (reading : BitVec 12) (order : List PitchPart) (s : State) :
    takePitch p reading order s = settle (drainEndTest ((partOrder order).foldl
      (takePart p (bump .pitches (advanceTable p s)).track reading.toNat)
      (bump .pitches (advanceTable p s)))) := rfl

theorem takePitch_clear {p : Profile} (reading : BitVec 12) (order : List PitchPart) {s : State}
    (hb : s.track.base < p.trackLen) (hl : p.trackLen ≤ 128) :
    FilmClear (takePitch p reading order s).wrap := by
  have hr : reading.toNat ≤ 4095 := by have := reading.isLt; omega
  rw [takePitch_eq]
  exact ((drainEndTest_keeps keeps_steady _).trans (settle_steady _)).units.clear
    (takeParts_clear _ hr hl order (base_back hb).1)

/-- PITCHES rises once in the event (R2). -/
theorem takePitch_counted (p : Profile) (reading : BitVec 12) (order : List PitchPart) (s : State) :
    Counted .pitches s (takePitch p reading order s) := by
  have stays := follows_notCounted (c := .pitches) (by decide)
  have counted : Counted .pitches s (bump .pitches (advanceTable p s)) :=
    bump_counted .pitches (advanceTable p s)
  rw [takePitch_eq]
  refine counted.before (NotCounted.trans (NotCounted.trans ?_
    (drainEndTest_follows stays (by decide) _)) (settle_follows stays (by decide) _))
  exact foldl_follows stays _ (fun u x => takePart_follows stays (by decide) p _ _ u x) _ _

/-- Settles O15: the table is stepped, the parts fill position 0 once, and nothing else moves a pocket. -/
theorem pitchEventStepsTheTrack : Obligations.PitchEventStepsTheTrack := by
  unfold Obligations.PitchEventStepsTheTrack
  refine ⟨fun input order s => ⟨exec_pitchEvent_none input order, fun p hj hr hb hl =>
    ⟨_, exec_pitchEvent input order hj hr, takePitch_frame _ _ _ _, ?_⟩⟩,
    fun input order => ⟨partOrder_nodup order, mem_partOrder order, partOrder_of_wellFormed⟩,
    fun p snap reading s => ⟨rfl, fun _ => rfl, rfl, rfl, rfl, rfl, rfl, rfl, fun _ => rfl⟩⟩
  have f := takePitch_fills (convert input) order hb hl
  obtain ⟨hfilm, hrun⟩ := takePitch_clear (convert input) order hb hl
  have hcount := takePitch_counted p (convert input) order s
  obtain ⟨hlt, hback⟩ := base_back hb
  have hat := advanceTable_at p s hb hl
  have heq := takePitch_eq p (convert input) order s
  generalize takePitch p (convert input) order s = t at f hfilm hrun hcount heq ⊢
  have hbase : t.track.base = (advanceTable p s).track.base := f.base
  have hraised : t.track.raised = s.track.raised - 1 := f.raised
  refine ⟨by omega, f.deficit, f.accumulator, ?_, ?_, f.next, ?_, fun i hi => ?_, hcount, hfilm, hrun,
    rfl, hbase.symm, rfl, fun i => ?_, heq⟩
  · rw [hbase]; exact hlt
  · rw [hbase]; exact hback
  · rw [hbase]; exact f.filled
  · have ho : i ≠ (advanceTable p s).track.base := by rw [← hbase]; exact hi
    rw [f.others i ho]
    show ((advanceTable p s).track.pocketAt i).map _ = _
    rw [hat, if_neg ho]
  · rw [hbase]; exact hat i

/-! ## Coasting -/

/-- Where the line holds all intake, the fill is a GAP (R48). -/
theorem takeFill_held {p : Profile} {s : State} (h : (holdsNow s).line = true) :
    takeFill p s = expiryTest p (updateWindow none (feedGap p s)) := by
  unfold takeFill fillIntake
  simp [h]

/-- Loaded and neither RUNNING nor DRAINING, the line holds all intake (R63). -/
theorem holdsNow_line {p : Profile} {s : State} (hj : s.job = some p)
    (h1 : s.line.state ≠ .running) (h2 : s.line.state ≠ .draining) :
    (holdsNow s).line = true := by
  have hidle : s.line.state ≠ .idle := by
    intro e; simp [State.job, e] at hj
  unfold holdsNow
  rw [hj]
  cases h : s.line.state <;> simp_all

theorem feedGap_at {p : Profile} {s : State} (hb : s.track.base < p.trackLen)
    (hl : p.trackLen ≤ 128) (i : Nat) : (feedGap p s).track.pocketAt i =
      if i = s.track.base then some (freshPocket s.track.nextSerial .gap)
      else s.track.pocketAt i := placePocket_at hb hl _ i

theorem freshGap_isGap (w : Word) : (freshPocket w .gap).isGap := ⟨rfl, rfl, rfl⟩

/-- The counters that a part other than the fill may move. -/
def restCounts : List LineCounter :=
  .prints :: .noPrints :: (gaugeCounts ++ wrapCounts ++ gateCounts ++ lastCounts)

theorem takePart_follows_rest {R : State → State → Prop} {L : LineCounter → Prop}
    (B : Follows R L) (h : ∀ c ∈ restCounts, L c) (p : Profile) (t : Track) (r : Nat) (s : State)
    {x : PitchPart} (hx : x ≠ .fill) : R s (takePart p t r s x) := by
  cases x <;> simp only [takePart]
  · exact absurd rfl hx
  · exact stationArrival_follows B _ _ _
  · exact printArrival_follows B
      (fun c m => h c (by simp [restCounts, gateCounts] at m ⊢; tauto)) _ _ _
  · exact verifyArrival_follows B _ _ _
  · exact gaugeArrival_follows B (fun c m => h c (by simp [restCounts, m])) _ _ _ _
  · exact wrapPart_follows B (fun c m => h c (by simp [restCounts, m])) _ _ _
  · exact rejectArrival_follows B (fun c m => h c (by simp [restCounts, m])) _ _
  · exact lastArrival_follows B (fun c m => h c (by simp [restCounts, m])) _ _
  · exact spitHead_follows B _ _

theorem takeParts_follows_rest {R : State → State → Prop} {L : LineCounter → Prop}
    (B : Follows R L) (h : ∀ c ∈ restCounts, L c) (p : Profile) (t : Track) (r : Nat)
    (l : List PitchPart) (hl : .fill ∉ l) (s : State) : R s (l.foldl (takePart p t r) s) := by
  induction l generalizing s with
  | nil => exact B.refl s
  | cons x l ih =>
    simp only [List.mem_cons, not_or] at hl
    exact B.trans (takePart_follows_rest B h p t r s (Ne.symm hl.1)) (ih hl.2 _)

/-- What a pitch event of a coasting line leaves, from the stepped table on (R18, R48). -/
structure CoastsOver (s t : State) : Prop where
  filled : ∃ k, t.track.pocketAt s.track.base = some k ∧ k.isGap
  coasts : Coasts s t
  gaps : Counted .gapsFed s t
  news : NotCounted .newFed s t
  remakes : NotCounted .remakesFed s t

/-- Parts before the fill leave the line coasting with its job. -/
theorem CoastsOver.after {s t u : State} (h : Steady s t) (hc : Coasts s t)
    (hn : ∀ c ∈ fillCounts, NotCounted c s t) (k : CoastsOver t u) : CoastsOver s u where
  filled := by rw [← h.base]; exact k.filled
  coasts := hc.trans k.coasts
  gaps := k.gaps.after (hn _ (by decide))
  news := (hn _ (by decide)).trans k.news
  remakes := (hn _ (by decide)).trans k.remakes

/-- What follows the fill leaves the GAP filled. -/
theorem CoastsOver.before {s t u : State} (k : CoastsOver s t) (h : Steady t u) (hc : Coasts t u)
    (hn : ∀ c ∈ fillCounts, NotCounted c t u) : CoastsOver s u where
  filled := by
    obtain ⟨q, hq, hg⟩ := k.filled
    exact h.gaps _ q hq hg
  coasts := k.coasts.trans hc
  gaps := k.gaps.before (hn _ (by decide))
  news := k.news.trans (hn _ (by decide))
  remakes := k.remakes.trans (hn _ (by decide))

/-- The fill of a coasting line (R48, R65). -/
theorem takeFill_coasts {p : Profile} {s : State} (hb : s.track.base < p.trackLen)
    (hl : p.trackLen ≤ 128) (h : (holdsNow s).line = true) : CoastsOver s (takeFill p s) := by
  have fed : CoastsOver s (feedGap p s) := {
    filled := ⟨_, by rw [feedGap_at hb hl, if_pos rfl], freshGap_isGap _⟩
    coasts := ⟨fun _ _ => rfl, rfl, [], by simp [feedGap, placePocket]⟩
    gaps := bump_counted .gapsFed (placePocket p _ s)
    news := bump_notCounted (by decide) (placePocket p _ s)
    remakes := bump_notCounted (by decide) (placePocket p _ s) }
  have hn (c : LineCounter) (hc : c ∈ fillCounts) (u : State) :
      NotCounted c u (expiryTest p (updateWindow none u)) := by
    have hi : c ≠ .interrupts := by revert hc; cases c <;> decide
    exact (updateWindow_follows (follows_notCounted hi) _ _).trans
      (expiryTest_follows (follows_notCounted hi) p _)
  rw [takeFill_held h]
  exact fed.before ((updateWindow_keeps keeps_steady _ _).trans (expiryTest_keeps keeps_steady p _))
    ((updateWindow_keeps keeps_coasts _ _).trans (expiryTest_keeps keeps_coasts p _))
    fun c hc => hn c hc _

/-- The fill counts are counted by the fill alone. -/
theorem takeParts_notFed {c : LineCounter} (hc : c ∈ fillCounts) (p : Profile) (t : Track) (r : Nat)
    (l : List PitchPart) (hl : .fill ∉ l) (s : State) :
    NotCounted c s (l.foldl (takePart p t r) s) := by
  have hi : c ≠ .interrupts := by revert hc; cases c <;> decide
  have hr : ∀ d ∈ restCounts, d ≠ c := by revert hc; cases c <;> decide
  exact takeParts_follows_rest (follows_notCounted hi) hr p t r l hl s

/-- A pitch event of a line that is loaded and neither RUNNING nor DRAINING (R48). -/
theorem takePitch_coasts {p : Profile} (reading : BitVec 12) (order : List PitchPart) {s : State}
    (hj : s.job = some p) (hb : s.track.base < p.trackLen) (hl : p.trackLen ≤ 128)
    (h1 : s.line.state ≠ .running) (h2 : s.line.state ≠ .draining) :
    CoastsOver (bump .pitches (advanceTable p s)) (takePitch p reading order s) := by
  have hr : reading.toNat ≤ 4095 := by have := reading.isLt; omega
  rw [takePitch_eq]
  generalize hu : bump .pitches (advanceTable p s) = u
  have hline : u.line = s.line := by rw [← hu]; rfl
  have hprof : u.profile = s.profile := by rw [← hu]; rfl
  have hub : u.track.base < p.trackLen := by rw [← hu]; exact (base_back hb).1
  obtain ⟨front, back, h, hf, hk⟩ := partOrder_split order
  rw [h, List.foldl_append, List.foldl_cons]
  have st := takeParts_keeps keeps_steady p u.track hr front hf u
  have co := takeParts_keeps keeps_coasts p u.track hr front hf u
  have hv : (holdsNow (front.foldl (takePart p u.track reading.toNat) u)).line = true := by
    have e := co.1 (by rw [hline]; exact h1) (by rw [hline]; exact h2)
    refine holdsNow_line (p := p) ?_ (by rw [e, hline]; exact h1) (by rw [e, hline]; exact h2)
    rw [State.job, e, st.profile, hline, hprof]; exact hj
  have fill := takeFill_coasts (by rw [st.base]; exact hub) hl hv
  have ended (v : State) (c : LineCounter) (hc : c ∈ fillCounts) :
      NotCounted c v (settle (drainEndTest v)) := by
    have hi : c ≠ .interrupts := by revert hc; cases c <;> decide
    have hp : ∀ d ∈ [LineCounter.pauses, .pagesRead], d ≠ c := by revert hc; cases c <;> decide
    exact (drainEndTest_follows (follows_notCounted hi) hp v).trans
      (settle_follows (follows_notCounted hi) (hp _ (by simp)) _)
  refine CoastsOver.before ?_ ((drainEndTest_keeps keeps_steady _).trans (settle_steady _))
    ((drainEndTest_keeps keeps_coasts _).trans (settle_keeps keeps_coasts _)) (ended _)
  exact (CoastsOver.after st co (fun c hc => takeParts_notFed hc p _ _ front hf _) fill).before
    (takeParts_keeps keeps_steady p _ hr back hk _) (takeParts_keeps keeps_coasts p _ hr back hk _)
    fun c hc => takeParts_notFed hc p _ _ back hk _

/-- Settles O16: the fill of a coasting line is a GAP, and no part feeds or changes the line. -/
theorem coastingPitchFillsAGap : Obligations.CoastingPitchFillsAGap := by
  unfold Obligations.CoastingPitchFillsAGap
  intro input order p s hj hr hb hl h1 h2
  have f := takePitch_fills (convert input) order hb hl
  have k := takePitch_coasts (convert input) order hj hb hl h1 h2
  have stepped (c : LineCounter) (hc : .pitches ≠ c) :
      NotCounted c s (bump .pitches (advanceTable p s)) := bump_notCounted hc (advanceTable p s)
  refine ⟨_, exec_pitchEvent input order hj hr, ?_⟩
  generalize takePitch p (convert input) order s = t at f k ⊢
  obtain ⟨q, hq, hkind, hstate, hsub⟩ := k.filled
  obtain ⟨hline, hstaging, hremakes⟩ := k.coasts
  have hserial := f.filled
  rw [hq] at hserial
  exact ⟨⟨q, by rw [f.base]; exact hq, Option.some.inj hserial, hkind, hstate, hsub⟩, hstaging,
    hremakes, hline h1 h2, k.gaps.after (stepped _ (by decide)), (stepped _ (by decide)).trans k.news,
    (stepped _ (by decide)).trans k.remakes⟩

end Sys2Proof.Machine
end

section
/-! The fill of a pitch event (R47 to R56): a remake, the front record, or a GAP. -/

namespace Sys2Proof.Machine

/-! ## A count behind quiet changes -/

/-- A count from a state with the same counters. -/
theorem counted_from {c : LineCounter} {s u : State} (h : u.counters = s.counters) :
    Counted c s (bump c u) := (bump_counted c u).after (notCounted_quiet h)

theorem onlyCounted_from {c : LineCounter} {s u : State} (h : u.counters = s.counters) :
    OnlyCounted [c] s (bump c u) := by
  obtain ⟨h1, h2, h3⟩ := onlyCounted_bump c u
  exact ⟨fun d hd => (notCounted_quiet h).trans (h1 d hd), by rw [h2, h], by rw [h3, h]⟩

/-! ## The choices of R47 -/

/-- The hold causes of a loaded line, each by its own condition (R63). -/
theorem holdsNow_loaded {p : Profile} {s : State} (hj : s.job = some p) :
    ((holdsNow s).line = true ↔ s.line.state = .ready ∨ s.line.state = .paused ∨
      s.line.state = .halted ∨ s.line.state = .complete) ∧
    (holdsNow s).noHead = !headActive s ∧
    (holdsNow s).starved = (decide (s.line.state = .running) && s.staging.isEmpty) ∧
    (holdsNow s).drain = decide (s.line.state = .draining) := by
  unfold holdsNow
  rw [hj]
  refine ⟨?_, rfl, rfl, rfl⟩
  simp only [Bool.or_eq_true, decide_eq_true_eq]
  tauto

/-- Where neither the line nor the heads nor an operator drain hold intake, the oldest remake is fed (R50). -/
theorem fillIntake_remake {p : Profile} {s : State} {r : Remake} {rest : List Remake}
    (h : ((holdsNow s).line || (holdsNow s).noHead) = false)
    (hd : (decide (s.line.state = .draining) && decide (s.line.drain = some .operator)) = false)
    (hr : s.remakes = r :: rest) :
    fillIntake p s = (feedRemake p r rest s, if r.sort = .inSort then some r.ordinal else none) := by
  simp only [fillIntake, h, hd, hr, Bool.false_eq_true, if_false]

/-! ## A remake -/

/-- The pocket of a remake (R50). -/
def remakePocket (r : Remake) (serial : Word) : Pocket :=
  { freshPocket serial .remake with
    subscriber := some { context := r.context, serial := r.serial }, attempt := some r.attempt,
    sort := some r.sort }

/-- The context of a remake that is fed (R8, R50). -/
def Context.refed (c : Context) (serial : Word) : Context :=
  { c with attempts := c.attempts + 1, lastPocket := serial, bypassed := StationSet.empty,
           gaugeSkipped := false, verifyCorrected := false }

/-- The state in which the pocket of a remake stands at position 0 (R50). -/
def placedRemake (p : Profile) (r : Remake) (rest : List Remake) (c : Context) (s : State) : State :=
  { setContext r.context (some (c.refed s.track.nextSerial))
      (placePocket p (remakePocket r s.track.nextSerial) s) with remakes := rest }

theorem feedRemake_eq {p : Profile} {r : Remake} {s : State} {c : Context}
    (hc : contextAt r.context s = some c) (rest : List Remake) :
    feedRemake p r rest s = bump .remakesFed (placedRemake p r rest c s) := by
  have hp (k : Pocket) : contextAt r.context (placePocket p k s) = some c := hc
  unfold feedRemake
  simp only [hp]
  rfl

/-- Placing a pocket changes the table alone. -/
@[simp] theorem placePocket_rest (p : Profile) (k : Pocket) (s : State) :
    (placePocket p k s).counters = s.counters ∧ (placePocket p k s).contexts = s.contexts ∧
    (placePocket p k s).line = s.line ∧ (placePocket p k s).bundles = s.bundles ∧
    (placePocket p k s).intake = s.intake ∧ (placePocket p k s).fetcher = s.fetcher ∧
    (placePocket p k s).remakes = s.remakes := by simp [placePocket, setPocket]

theorem placedRemake_fields {p : Profile} {r : Remake} {s : State} {c : Context}
    (hb : s.track.base < p.trackLen) (hl : p.trackLen ≤ 128) (hr : r.context < 128)
    (rest : List Remake) :
    let u := placedRemake p r rest c s
    u.remakes = rest ∧ u.staging = s.staging ∧
    u.track.pocketAt s.track.base = some (remakePocket r s.track.nextSerial) ∧
    u.track.nextSerial = serialAfter s.track.nextSerial ∧
    (∀ j, contextAt j u = if j = r.context then some (c.refed s.track.nextSerial)
      else contextAt j s) ∧
    u.counters = s.counters ∧ u.line = s.line ∧ u.bundles = s.bundles ∧ u.intake = s.intake ∧
    u.fetcher = s.fetcher := by
  have hat := (placePocket_at hb hl (remakePocket r s.track.nextSerial) s.track.base).trans
    (if_pos rfl)
  have hser := (placePocket_track p (remakePocket r s.track.nextSerial) s).2.1
  have hframe := placePocket_frame p (remakePocket r s.track.nextSerial) s
  have hrest := placePocket_rest p (remakePocket r s.track.nextSerial) s
  unfold placedRemake
  generalize placePocket p (remakePocket r s.track.nextSerial) s = u at *
  obtain ⟨-, -, -, hstg, -⟩ := hframe
  obtain ⟨hcount, hctx, hline, hbun, hint, hfet, -⟩ := hrest
  have hset (j : Nat) := setContext_at hr (some (c.refed s.track.nextSerial)) u j
  simp only [contextAt, hctx] at hset
  exact ⟨rfl, hstg, hat, hser, hset, hcount, hline, hbun, hint, hfet⟩

/-- The pocket, the context and the count of a remake that is fed (R50), and what stays. -/
theorem feedRemake_feeds {p : Profile} {r : Remake} {s : State} {c : Context}
    (hb : s.track.base < p.trackLen) (hl : p.trackLen ≤ 128) (hc : contextAt r.context s = some c)
    (rest : List Remake) :
    let t := feedRemake p r rest s
    t.remakes = rest ∧ t.staging = s.staging ∧
    (∃ k, t.track.pocketAt s.track.base = some k ∧ k.serial = s.track.nextSerial ∧
      k.kind = .remake ∧ k.state = .live ∧ k.attempt = some r.attempt ∧ k.sort = some r.sort ∧
      k.subscriber = some { context := r.context, serial := r.serial } ∧ k.fault = none) ∧
    t.track.nextSerial = serialAfter s.track.nextSerial ∧
    contextAt r.context t = some (c.refed s.track.nextSerial) ∧
    (∀ j, j ≠ r.context → contextAt j t = contextAt j s) ∧
    Counted .remakesFed s t ∧ OnlyCounted [.remakesFed] s t ∧ SameButPieces t s ∧
    t.line = s.line ∧ t.bundles = s.bundles ∧ t.intake = s.intake ∧ t.fetcher = s.fetcher := by
  have hframe := feedRemake_frame p r rest s
  rw [feedRemake_eq hc] at hframe ⊢
  obtain ⟨hrem, hstg, hat, hser, hctx, hcount, hline, hbun, hint, hfet⟩ :=
    placedRemake_fields (r := r) (c := c) hb hl (contextAt_lt hc) rest
  generalize placedRemake p r rest c s = u at *
  exact ⟨hrem, hstg, ⟨_, hat, rfl, rfl, rfl, rfl, rfl, rfl, rfl⟩, hser,
    (hctx _).trans (if_pos rfl), fun j hne => (hctx j).trans (if_neg hne), counted_from hcount,
    onlyCounted_from hcount, hframe, hline, hbun, hint, hfet⟩

/-- Settles O17: the fill is feedRemake, whose steps are the placing of the pocket, the change of its
context and the count. -/
theorem intakeFeedsTheOldestRemake : Obligations.IntakeFeedsTheOldestRemake := by
  unfold Obligations.IntakeFeedsTheOldestRemake
  intro p s r rest c hj hb hl hline hdrain hhead hr hc
  obtain ⟨hh, hno, -, -⟩ := holdsNow_loaded hj
  have hfree : ((holdsNow s).line || (holdsNow s).noHead) = false := by
    rw [hno, hhead, Bool.not_true, Bool.or_false, Bool.eq_false_iff]
    intro e
    rcases hline with h | h <;> simp [h] at hh <;> simp [hh] at e
  have hop : (decide (s.line.state = .draining) && decide (s.line.drain = some .operator)) = false := by
    simp [hdrain]
  rw [fillIntake_remake hfree hop hr]
  exact ⟨rfl, feedRemake_feeds hb hl hc rest⟩

end Sys2Proof.Machine
end

section
/-! The fill of a pitch event that feeds a GAP or the front record (R47 to R49, R52 to R55). -/

namespace Sys2Proof.Machine

/-! ## A GAP -/

/-- Nothing to feed: a RUNNING line with a head ACTIVE, and neither a remake nor a record (R65). -/
abbrev NothingToFeed (s : State) : Prop :=
  s.line.state = .running ∧ headActive s = true ∧ s.remakes = [] ∧ s.staging = []

/-- No pocket may be fed (R47 to R49). -/
abbrev NoFeed (s : State) : Prop :=
  (holdsNow s).line = true ∨ (holdsNow s).noHead = true ∨
  s.line.state = .draining ∧ s.line.drain = some .operator ∨
  s.remakes = [] ∧ (s.staging = [] ∨ (holdsNow s).drain = true ∨ (holdsNow s).tableFull = true ∨
    (holdsNow s).bundleTail = true)

/-- Where no pocket may be fed, the fill is a GAP, counted in STARVED_GAPS where there is nothing to feed. -/
theorem fillIntake_gap {p : Profile} {s : State} (hj : s.job = some p) (h : NoFeed s) :
    fillIntake p s =
      (applyIf (decide (NothingToFeed s)) (bump .starvedGaps) (feedGap p s), none) := by
  obtain ⟨hline, hno, hst, hdr⟩ := holdsNow_loaded hj
  have gap (hn : ¬ NothingToFeed s) : ((feedGap p s, none) : State × Option Nat) =
      (applyIf (decide (NothingToFeed s)) (bump .starvedGaps) (feedGap p s), none) := by
    rw [applyIf, if_neg (by simpa using hn)]
  have notStarved (hs : (holdsNow s).starved = false) : ¬ NothingToFeed s := by
    rintro ⟨h1, -, -, h4⟩
    simp [hst, h1, h4] at hs
  unfold fillIntake
  simp only []
  split
  · next hc =>
    refine gap ?_
    rintro ⟨h1, h2, -, -⟩
    rw [hno, h2] at hc
    simp [h1] at hline
    simp [hline] at hc
  · next hc =>
    split
    · next hd =>
      refine gap ?_
      rintro ⟨h1, -⟩
      simp [h1] at hd
    · next hd =>
      obtain ⟨hr, hs⟩ : s.remakes = [] ∧ (s.staging = [] ∨ (holdsNow s).drain = true ∨
          (holdsNow s).tableFull = true ∨ (holdsNow s).bundleTail = true) := by
        rcases h with h | h | h | h
        · simp [h] at hc
        · simp [h] at hc
        · simp [h] at hd
        · exact h
      have hactive : headActive s = true := by
        rw [hno] at hc
        by_contra hf
        simp [hf] at hc
      split
      · next hq => simp [hr] at hq
      · split
        · next r rest i hstg _ =>
          have hs : ((holdsNow s).drain || (holdsNow s).tableFull ||
              (holdsNow s).bundleTail) = true := by
            rw [hstg] at hs
            simpa [or_assoc] using hs
          rw [if_pos hs]
          exact gap (notStarved (by simp [hst, hstg]))
        · have hiff : (holdsNow s).starved = decide (NothingToFeed s) := by
            rw [hst, Bool.eq_iff_iff]
            simp [NothingToFeed, hactive, hr]
          rw [hiff]

/-- The pocket, the serial and the counts of a GAP that is fed (R47, R65). -/
theorem feedGap_feeds {p : Profile} {s : State} (hb : s.track.base < p.trackLen)
    (hl : p.trackLen ≤ 128) (b : Bool) :
    let t := applyIf b (bump .starvedGaps) (feedGap p s)
    t = { s with track := t.track, counters := t.counters } ∧
    (∃ k, t.track.pocketAt s.track.base = some k ∧ k.serial = s.track.nextSerial ∧
      k.kind = .gap ∧ k.state = .empty ∧ k.subscriber = none) ∧
    (∀ i, i ≠ s.track.base → t.track.pocketAt i = s.track.pocketAt i) ∧
    t.track.nextSerial = serialAfter s.track.nextSerial ∧ Counted .gapsFed s t ∧
    OnlyCounted [.gapsFed, .starvedGaps] s t ∧
    (b = true → Counted .starvedGaps s t) ∧ (b = false → NotCounted .starvedGaps s t) := by
  have hat := feedGap_at hb hl
  have hcount : Counted .gapsFed s (feedGap p s) :=
    counted_from (u := placePocket p (freshPocket s.track.nextSerial .gap) s) rfl
  have honly : OnlyCounted [.gapsFed] s (feedGap p s) :=
    onlyCounted_from (u := placePocket p (freshPocket s.track.nextSerial .gap) s) rfl
  obtain ⟨hothers, htotal, hinterval⟩ := honly
  have hfilled := (hat s.track.base).trans (if_pos rfl)
  have hrest : feedGap p s = { s with
      track := (feedGap p s).track, counters := (feedGap p s).counters } := rfl
  have hnext : (feedGap p s).track.nextSerial = serialAfter s.track.nextSerial := rfl
  generalize feedGap p s = u at hat hcount hothers htotal hinterval hfilled hrest hnext
  cases b with
  | false =>
    refine ⟨hrest, ⟨_, hfilled, rfl, rfl, rfl, rfl⟩, fun i hi => (hat i).trans (if_neg hi), hnext,
      hcount, ⟨fun c hc => hothers c ?_, htotal, hinterval⟩, by simp, fun _ => hothers _ (by decide)⟩
    simp only [List.mem_cons, not_or] at hc
    simpa using hc.1
  | true =>
    have hstarved : NotCounted .starvedGaps s u := hothers _ (by decide)
    refine ⟨?_, ⟨_, hfilled, rfl, rfl, rfl, rfl⟩, fun i hi => (hat i).trans (if_neg hi), hnext,
      hcount.before (bump_notCounted (by decide) u),
      ⟨fun c hc => ?_, htotal, hinterval⟩, fun _ => (bump_counted .starvedGaps u).after hstarved,
      by simp⟩
    · show bump .starvedGaps u = _
      rw [hrest]
      rfl
    · simp only [List.mem_cons, List.not_mem_nil, or_false, not_or] at hc
      exact (hothers c (by simpa using hc.1)).trans (bump_notCounted (Ne.symm hc.2) u)

/-! ## The hold causes after the steps of a feed -/

/-- The hold causes are conditions of the line state, the profile, the heads, the bundles and the queue
(R63). -/
theorem holdsNow_congr {s t : State} (hl : t.line.state = s.line.state)
    (hp : t.profile = s.profile) (hu : t.print = s.print) (hb : t.bundles = s.bundles)
    (hs : t.staging = s.staging) : holdsNow t = holdsNow s := by
  simp only [holdsNow, State.job, headActive, tailingBundle, hl, hp, hu, hb, hs]

theorem refreshHolds_current (s : State) : HoldsCurrent (refreshHolds s) := by
  unfold HoldsCurrent
  rw [refreshHolds_intake]
  exact (holdsNow_congr (by simp) (by simp) (by simp) (by simp) (by simp)).symm

/-- The set stays current where none of its conditions changes. -/
theorem HoldsCurrent.of_same {s t : State} (h : HoldsCurrent s)
    (hi : t.intake.holds = s.intake.holds) (hl : t.line.state = s.line.state)
    (hp : t.profile = s.profile) (hu : t.print = s.print) (hb : t.bundles = s.bundles)
    (hs : t.staging = s.staging) : HoldsCurrent t := by
  unfold HoldsCurrent at *
  rw [hi, h, holdsNow_congr hl hp hu hb hs]

theorem HoldsCurrent.of_link {s t : State} (h : HoldsCurrent s) (k : SameButLink t s) :
    HoldsCurrent t := by
  obtain ⟨-, -, hp, -, hs, -, hi, -, -, -, -, hu, -, -, -, hb, -, hl, -⟩ := k
  exact h.of_same (by rw [hi]) (by rw [hl]) hp hu hb hs

theorem changeLine_current (l : Line) (s : State) : HoldsCurrent (changeLine l s) := by
  unfold changeLine applyIf
  split
  · exact (refreshHolds_current _).of_link (raise_frame _ _)
  · exact refreshHolds_current _

theorem completionTest_current {s : State} (h : HoldsCurrent s) : HoldsCurrent (completionTest s) := by
  unfold completionTest; split
  · exact (changeLine_current _ _).of_link (raise_frame _ _)
  · exact h

theorem fileEndTest_current {s : State} (h : HoldsCurrent s) : HoldsCurrent (fileEndTest s) := by
  unfold fileEndTest takeFileEnd
  split
  · split
    · exact completionTest_current (changeLine_current _ _)
    · exact h.of_same rfl rfl rfl rfl rfl rfl
  · exact h

/-- STARVED is set where the queue becomes empty under a RUNNING line that was not starved (R64). -/
theorem refreshHolds_starves {s : State} (ho : LinkOpen s) (h : (holdsNow s).starved = true)
    (k : s.intake.holds.starved = false) :
    (refreshHolds s).link.attention.getLsbD 8 = true := by
  have hne : holdsNow s ≠ s.intake.holds := fun e => by rw [e, k] at h; simp at h
  unfold refreshHolds
  simp only [if_neg hne]
  rw [applyIf, if_pos (by simp [h, k])]
  have written : Flows s (statusWrite 0x204 (leBytes 1 (holdsNow s).code)
      { s with intake := { s.intake with holds := holdsNow s } }) :=
    (flows_quiet (t := { s with intake := { s.intake with holds := holdsNow s } }) rfl rfl rfl).trans
      (handOver_flows _ _)
  exact raise_set (written.2.1 ho) .starved

end Sys2Proof.Machine
end

section
/-! The fill of a pitch event that feeds the front record (R53 to R55). -/

namespace Sys2Proof.Machine

/-! ## The steps before the pocket -/

/-- The front record is fed where no hold cause stands and no remake waits (R47, R52). -/
theorem fillIntake_new {p : Profile} {s : State} {r : Staged} {rest : List Staged} {i : Nat}
    (hj : s.job = some p) (hh : holdsNow s = .empty) (hr : s.remakes = [])
    (hs : s.staging = r :: rest) (hf : freeContextEntry s = some i) :
    fillIntake p s = (feedNew p r rest i s, some r.ordinal) := by
  obtain ⟨-, -, -, hd⟩ := holdsNow_loaded hj
  rw [hh] at hd
  have hnd : decide (s.line.state = .draining) = false := hd.symm
  simp [fillIntake, hh, hr, hs, hf, Holds.empty, hnd]

/-- What the steps before the pocket leave (R53). -/
theorem stageNew_fields (r : Staged) (rest : List Staged) (i : Nat) (s : State) :
    let u := stageNew r rest i s
    u.staging = rest ∧ u.remakes = s.remakes ∧ u.track = s.track ∧ u.line = s.line ∧
    u.profile = s.profile ∧ u.fetcher = s.fetcher := by
  unfold stageNew applyIf
  simp only []
  split <;> simp [countAndTest, openBundle]

/-- The context of the record is made (R39), and no other changes. -/
theorem stageNew_context (r : Staged) (rest : List Staged) {i : Nat} (hi : i < 128) (s : State)
    (j : Nat) : contextAt j (stageNew r rest i s) =
      if j = i then some (r.toContext s.track.nextSerial) else contextAt j s := by
  have hc : (stageNew r rest i s).contexts =
      (setContext i (some (r.toContext s.track.nextSerial)) s).contexts := by
    unfold stageNew applyIf
    simp only []
    split <;> simp [countAndTest, openBundle, setContext]
  rw [← setContext_at hi, contextAt, contextAt, hc]

theorem stageNew_current (r : Staged) (rest : List Staged) (i : Nat) (s : State) :
    HoldsCurrent (stageNew r rest i s) := refreshHolds_current _

/-- The bundle of an opening record, its first subscriber counted (R54, R55). -/
def openedBundle (r : Staged) : Bundle :=
  Bundle.tailingTest { r.toBundle with fed := r.toBundle.fed + 1 }

/-- The bundles after the record is counted (R54, R55). -/
theorem stageNew_bundles (r : Staged) (rest : List Staged) (i : Nat) (s : State) :
    (stageNew r rest i s).bundles =
      (if 0 < r.size then s.bundles ++ [r.toBundle] else s.bundles).map fun b =>
        if b.ordinal = r.ordinal then Bundle.tailingTest { b with fed := b.fed + 1 } else b := by
  unfold stageNew applyIf
  simp only [decide_eq_true_eq]
  split <;> simp [countAndTest, updateBundle, openBundle]

/-- The bundle opens at the tail of the table where no other has its ordinal (R54). -/
theorem stageNew_opened {r : Staged} {s : State} (rest : List Staged) (i : Nat) (h : 0 < r.size)
    (hb : ∀ b ∈ s.bundles, b.ordinal ≠ r.ordinal) :
    (stageNew r rest i s).bundles = s.bundles ++ [openedBundle r] := by
  rw [stageNew_bundles, if_pos h, List.map_append]
  congr 1
  · exact (List.map_congr_left fun b m => if_neg (hb b m)).trans (List.map_id _)
  · simp [openedBundle, Staged.toBundle]

/-- A record that continues its bundle counts in it (R55). -/
theorem stageNew_counted {r : Staged} {s : State} (rest : List Staged) (i : Nat) (h : r.size = 0) :
    (stageNew r rest i s).bundles = s.bundles.map fun b => if b.ordinal = r.ordinal then
        { b with fed := b.fed + 1, state := if b.state = .feeding ∧ b.fed + 1 + b.withdrawn = b.size
            then .tailing else b.state } else b := by
  rw [stageNew_bundles, if_neg (by omega)]
  refine List.map_congr_left fun b _ => ?_
  by_cases hb : b.state = .feeding <;> by_cases hf : b.fed + 1 + b.withdrawn = b.size <;>
    simp [Bundle.tailingTest, hb, hf]

theorem openedBundle_fields (r : Staged) :
    let b := openedBundle r
    b.ordinal = r.ordinal ∧ b.size = r.size ∧ b.fed = 1 ∧ b.withdrawn = r.withdrawn ∧
    b.broken = r.broken ∧ b.trayEnd = r.trayEnd ∧ b.delivered = 0 ∧ b.outOfSort = 0 ∧ b.failed = 0 ∧
    (b.state = .tailing ↔ 1 + r.withdrawn = r.size) ∧
    (b.state = .feeding ↔ 1 + r.withdrawn ≠ r.size) := by
  by_cases h : 1 + r.withdrawn = r.size <;>
    simp [openedBundle, Bundle.tailingTest, Staged.toBundle, h]

/-- The tail-window counter is 0 for a bundle that opens (R54), and else as it was. -/
theorem stageNew_window (r : Staged) (rest : List Staged) (i : Nat) (s : State) :
    (stageNew r rest i s).intake.window = if 0 < r.size then some 0 else s.intake.window := by
  unfold stageNew applyIf
  simp only [decide_eq_true_eq]
  split <;> simp [openBundle]

/-- From the removal of the record to the pocket nothing is taken back. -/
theorem stageNew_flows (r : Staged) (rest : List Staged) (i : Nat) (s : State) :
    Flows (refreshHolds { s with staging := rest }) (stageNew r rest i s) := by
  refine Flows.trans ?_ (countAndTest_follows follows_flows r.ordinal _ _)
  refine Flows.trans ?_ (applyIf_follows follows_flows fun u =>
    openBundle_follows follows_flows trivial r u)
  exact setContext_follows follows_flows _ _ _

/-- BUNDLES_OPENED is counted where the record opens a bundle, and no other counter but INTERRUPTS is. -/
theorem stageNew_opens {c : LineCounter} (hi : c ≠ .interrupts) (r : Staged) (rest : List Staged)
    (i : Nat) (s : State) :
    (c = .bundlesOpened → 0 < r.size → Counted c s (stageNew r rest i s)) ∧
    (c ≠ .bundlesOpened ∨ r.size = 0 → NotCounted c s (stageNew r rest i s)) := by
  have stays := follows_notCounted hi
  have front : NotCounted c s (setContext i (some (r.toContext
      (refreshHolds { s with staging := rest }).track.nextSerial))
      (refreshHolds { s with staging := rest })) :=
    (NotCounted.trans (t := { s with staging := rest }) (notCounted_quiet rfl)
      (refreshHolds_follows stays _)).trans (setContext_follows stays _ _ _)
  unfold stageNew
  simp only []
  generalize setContext i (some _) (refreshHolds { s with staging := rest }) = u at front
  have back (v : State) :
      NotCounted c v (countAndTest r.ordinal (fun b => { b with fed := b.fed + 1 }) v) :=
    countAndTest_follows stays _ _ v
  refine ⟨fun hc hs => ?_, fun hor => ?_⟩
  · subst hc
    rw [applyIf, if_pos (by simpa using hs)]
    refine Counted.before (Counted.after front ?_) (back _)
    unfold openBundle
    refine (bump_counted .bundlesOpened _).after ?_
    exact NotCounted.trans (t := { u with
        bundles := u.bundles ++ [r.toBundle], intake := { u.intake with window := some 0 } })
      (notCounted_quiet rfl) (refreshHolds_follows stays _)
  · refine front.trans (NotCounted.trans ?_ (back _))
    unfold applyIf
    split
    · next hs =>
      rcases hor with hne | h0
      · exact openBundle_follows stays (Ne.symm hne) r u
      · simp [h0] at hs
    · exact .refl _ _

/-! ## The pocket and the end of the file -/

/-- The file is exhausted where END was seen and the record fed was the last (R36). -/
theorem fileEndTest_exhausted {p : Profile} {s : State} (hj : s.job = some p) :
    (fileEndTest s).line.fileExhausted =
      (s.line.fileExhausted || (s.fetcher.endSeen && s.staging.isEmpty)) := by
  have taken : (takeFileEnd s).line.fileExhausted = true := by
    unfold takeFileEnd; split
    · rw [completionTest_line]; split <;> simp
    · rfl
  unfold fileEndTest
  split
  · next h =>
    simp only [fileEndDue, Bool.and_eq_true] at h
    obtain ⟨⟨⟨-, he⟩, hs⟩, -⟩ := h
    rw [taken, he, hs]
    simp
  · next h =>
    simp only [fileEndDue, hj, Option.isSome_some, Bool.true_and, Bool.and_eq_true,
      Bool.not_eq_true'] at h
    cases hx : s.line.fileExhausted <;> cases he : s.fetcher.endSeen <;>
      cases hs : s.staging.isEmpty <;> simp_all

theorem freeContextEntry_lt {s : State} {i : Nat} (h : freeContextEntry s = some i) : i < 128 := by
  have := (List.findIdx?_eq_some_iff_getElem.mp h).1
  simpa using this

/-- The state in which the pocket of a record that is fed stands at position 0 (R53). -/
def placedNew (p : Profile) (r : Staged) (rest : List Staged) (i : Nat) (s : State) : State :=
  placePocket p (newPocket r i s.track.nextSerial) (stageNew r rest i s)

theorem feedNew_placed (p : Profile) (r : Staged) (rest : List Staged) (i : Nat) (s : State) :
    feedNew p r rest i s = bump .newFed (fileEndTest (placedNew p r rest i s)) := by
  obtain ⟨-, -, htrack, -⟩ := stageNew_fields r rest i s
  rw [feedNew_eq, placedNew, htrack]

/-- The record leaves the queue, its pocket stands at position 0 and its context is made (R53). -/
theorem placedNew_fields {p : Profile} {s : State} (hb : s.track.base < p.trackLen)
    (hl : p.trackLen ≤ 128) (r : Staged) (rest : List Staged) {i : Nat} (hi : i < 128) :
    let u := placedNew p r rest i s
    u.staging = rest ∧ u.remakes = s.remakes ∧ u.line = s.line ∧ u.profile = s.profile ∧
    u.fetcher = s.fetcher ∧
    u.track.pocketAt s.track.base = some (newPocket r i s.track.nextSerial) ∧
    u.track.nextSerial = serialAfter s.track.nextSerial ∧
    contextAt i u = some (r.toContext s.track.nextSerial) ∧ HoldsCurrent u ∧
    u.intake.window = (stageNew r rest i s).intake.window ∧
    u.bundles = (stageNew r rest i s).bundles := by
  obtain ⟨hs, hr, ht, hline, hp, hf⟩ := stageNew_fields r rest i s
  have hc := (stageNew_context r rest hi s i).trans (if_pos rfl)
  have hh := stageNew_current r rest i s
  unfold placedNew
  generalize stageNew r rest i s = u at hs hr ht hline hp hf hc hh ⊢
  have hat := placePocket_at (p := p) (s := u) (by rw [ht]; exact hb) hl
    (newPocket r i s.track.nextSerial) s.track.base
  rw [ht, if_pos rfl] at hat
  refine ⟨hs, hr, hline, hp, hf, hat, ?_, hc, ?_, rfl, rfl⟩
  · rw [placePocket_track p _ u |>.2.1, ht]
  · exact hh.of_same rfl rfl rfl rfl rfl rfl

end Sys2Proof.Machine
end

section
/-! The settling of O18. -/

namespace Sys2Proof.Machine

/-- Starvation begins at the feed of the last staged record of a RUNNING line (R64). -/
theorem placedNew_starves {p : Profile} {s : State} (hj : s.job = some p)
    (hrun : s.line.state = .running) (hs : s.intake.holds.starved = false) (ho : LinkOpen s)
    (r : Staged) (i : Nat) :
    (placedNew p r [] i s).link.attention.getLsbD 8 = true := by
  obtain ⟨-, -, hst, -⟩ := holdsNow_loaded (s := { s with staging := [] }) hj
  have hset := refreshHolds_starves (s := { s with staging := [] }) ho
    (by rw [hst]; simp [hrun]) hs
  exact (stageNew_flows r [] i s).2.2 8 hset

/-- A counter that the placing of the pocket does not touch. -/
theorem placedNew_counters (p : Profile) (r : Staged) (rest : List Staged) (i : Nat) (s : State) :
    (placedNew p r rest i s).counters = (stageNew r rest i s).counters :=
  (placePocket_rest p _ _).1

/-- The feed of the front record, after its pocket stands at position 0. -/
theorem placedNew_notCounted {c : LineCounter} (hi : c ≠ .interrupts) (hc : c ≠ .bundlesOpened)
    (p : Profile) (r : Staged) (rest : List Staged) (i : Nat) (s : State) :
    NotCounted c s (placedNew p r rest i s) :=
  ((stageNew_opens hi r rest i s).2 (.inl hc)).trans
    (notCounted_quiet (placedNew_counters p r rest i s))

/-- Settles O18, by `feedNew_placed`: the pocket is placed, the end of the file is tested, the feed is
counted; a fill that may feed no record is a GAP. -/
theorem intakeFeedsTheFrontRecord : Obligations.IntakeFeedsTheFrontRecord := by
  unfold Obligations.IntakeFeedsTheFrontRecord
  refine ⟨fun p s r rest i hj hb hl hh hr hs hf hopen => ?_, fun p s hj hb hl h => ?_⟩
  · have hi := freeContextEntry_lt hf
    obtain ⟨hstg, hrem, hline, hprof, hfet, hat, hser, hctx, hcur, hwin, hbun⟩ :=
      placedNew_fields hb hl r rest hi
    have hju : (placedNew p r rest i s).job = some p := by
      rw [← hj, State.job, State.job, hline, hprof]
    have hexh := fileEndTest_exhausted hju
    rw [hline, hfet, hstg] at hexh
    have hstarve (hrest : rest = []) (hrun : s.line.state = .running)
        (hns : s.intake.holds.starved = false) (ho : LinkOpen s) :
        (placedNew p r rest i s).link.attention.getLsbD 8 = true := by
      subst hrest
      exact placedNew_starves hj hrun hns ho r i
    have hnew := placedNew_notCounted (c := .newFed) (by decide) (by decide) p r rest i s
    have hplace : NotCounted .bundlesOpened (stageNew r rest i s) (placedNew p r rest i s) :=
      notCounted_quiet (placedNew_counters p r rest i s)
    have hopens : 0 < r.size → Counted .bundlesOpened s (placedNew p r rest i s) := fun hsize =>
      ((stageNew_opens (by decide) r rest i s).1 rfl hsize).before hplace
    have hcontinues : r.size = 0 → NotCounted .bundlesOpened s (placedNew p r rest i s) :=
      fun hsize => ((stageNew_opens (by decide) r rest i s).2 (.inr hsize)).trans hplace
    rw [fillIntake_new hj hh hr hs hf, feedNew_placed]
    simp only []
    generalize placedNew p r rest i s = u at *
    obtain ⟨-, -, -, -, fstg, fctx, fwin, ftrack, -, -, -, -, frem, -, fbun, -⟩ :=
      fileEndTest_frame u
    have stays {c : LineCounter} (hc : c ≠ .interrupts) : NotCounted c u (fileEndTest u) :=
      fileEndTest_follows (follows_notCounted hc) u
    have hquiet : NotCounted .bundlesOpened u (bump .newFed (fileEndTest u)) :=
      (stays (by decide)).trans (bump_notCounted (by decide) _)
    have hcurrent := (fileEndTest_current hcur).of_link (bump_frame .newFed _)
    have hattention : Flows u (bump .newFed (fileEndTest u)) :=
      (fileEndTest_follows follows_flows u).trans (bump_flows _ _)
    have hcounted : Counted .newFed s (bump .newFed (fileEndTest u)) :=
      (bump_counted .newFed _).after (hnew.trans (stays (by decide)))
    refine ⟨trivial, fstg.trans hstg, frem.trans (hrem.trans hr), ?_, ?_, ?_, hcurrent, ?_, ?_, ?_,
      hexh, hcounted⟩
    · exact ⟨newPocket r i s.track.nextSerial, by rw [← hat, ← ftrack]; rfl,
        rfl, rfl, rfl, rfl, rfl, rfl, rfl⟩
    · exact (congrArg Track.nextSerial ftrack).trans hser
    · have hmade : contextAt i (fileEndTest u) = some (r.toContext s.track.nextSerial) := by
        rw [contextAt, fctx]
        exact hctx
      exact ⟨r.toContext s.track.nextSerial, hmade, rfl, rfl, rfl, rfl, rfl, rfl, rfl, rfl, rfl, rfl, rfl, rfl, rfl, rfl⟩
    · exact fun hrest hrun hns ho => hattention.2.2 8 (hstarve hrest hrun hns ho)
    · intro hsize
      refine ⟨?_, (hopens hsize).before hquiet, openedBundle r, ?_, openedBundle_fields r⟩
      · exact fwin.trans (hwin.trans ((stageNew_window r rest i s).trans (if_pos hsize)))
      · exact fbun.trans (hbun.trans (stageNew_opened rest i hsize (hopen hsize)))
    · intro hsize
      refine ⟨?_, (hcontinues hsize).trans hquiet, ?_⟩
      · exact fwin.trans (hwin.trans ((stageNew_window r rest i s).trans (if_neg (by omega))))
      · exact fbun.trans (hbun.trans (stageNew_counted rest i hsize))
  · obtain ⟨hsame, hpocket, hothers, hserial, hgaps, honly, hyes, hno⟩ :=
      feedGap_feeds hb hl (decide (NothingToFeed s))
    rw [fillIntake_gap hj h]
    exact ⟨rfl, hsame, hpocket, hothers, hserial, hgaps, honly,
      fun hn => hyes (decide_eq_true hn), fun hn => hno (decide_eq_false hn)⟩

end Sys2Proof.Machine
end

section
/-! The arrival at REJECT (R142 to R144). -/

namespace Sys2Proof.Machine

/-! ## Counting several times -/

theorem countedOn_zero (w : Word) : countedOn 0 w = w := by
  have := w.isLt
  unfold countedOn
  rw [Nat.add_zero, Nat.min_eq_left (by omega)]
  simp

theorem countedOn_add (m n : Nat) (w : Word) : countedOn n (countedOn m w) = countedOn (m + n) w := by
  unfold countedOn
  congr 1
  rw [BitVec.toNat_ofNat, Nat.mod_eq_of_lt (by omega)]
  omega

theorem satIncr_countedOn (w : Word) : satIncr w = countedOn 1 w := by
  have hw := w.isLt
  unfold satIncr countedOn
  split
  · next h => rw [h]; rfl
  · next h =>
    have hne : w.toNat ≠ 4294967295 := fun e => h (BitVec.eq_of_toNat_eq e)
    rw [Nat.min_eq_left (by omega)]
    apply BitVec.eq_of_toNat_eq
    rw [BitVec.toNat_add, BitVec.toNat_ofNat]
    rfl

theorem countedTimes_zero {c : LineCounter} {s t : State} :
    CountedTimes 0 c s t ↔ NotCounted c s t := by
  simp only [CountedTimes, NotCounted, countedOn_zero]

theorem countedTimes_one {c : LineCounter} {s t : State} :
    CountedTimes 1 c s t ↔ Counted c s t := by
  simp only [CountedTimes, Counted, satIncr_countedOn]

theorem CountedTimes.trans {m n : Nat} {c : LineCounter} {s t u : State}
    (h : CountedTimes m c s t) (k : CountedTimes n c t u) : CountedTimes (m + n) c s u := by
  unfold CountedTimes at *
  rw [k.1, k.2, h.1, h.2, countedOn_add, countedOn_add]
  exact ⟨rfl, rfl⟩

/-! ## The faults at the gate -/

/-- One item still pending becomes a fault (R143). -/
def gateItem (i : Nat) (t : State) (f : FaultCause × Option (Fin 12)) : State :=
  handFault i f.1 f.2 false (bump .gateFaults t)

theorem gateItem_notCounted {c : LineCounter} (hi : c ≠ .interrupts) (hg : c ≠ .gateFaults)
    (hf : c ∉ faultCounts) (i : Nat) (f : FaultCause × Option (Fin 12)) (s : State) :
    NotCounted c s (gateItem i s f) :=
  (bump_notCounted hg.symm s).trans
    (handFault_follows (follows_notCounted hi) (fun _ m e => hf (e ▸ m)) i _ _ _ _)

theorem gateItems_notCounted {c : LineCounter} (hi : c ≠ .interrupts) (hg : c ≠ .gateFaults)
    (hf : c ∉ faultCounts) (i : Nat) (items : List (FaultCause × Option (Fin 12))) (s : State) :
    NotCounted c s (items.foldl (gateItem i) s) :=
  foldl_follows (follows_notCounted hi) (gateItem i) (fun u f => gateItem_notCounted hi hg hf i f u)
    items s

/-- Each item is counted in GATE_FAULTS. -/
theorem gateItem_counted (i : Nat) (f : FaultCause × Option (Fin 12)) (s : State) :
    Counted .gateFaults s (gateItem i s f) :=
  (bump_counted .gateFaults s).before
    (handFault_follows (follows_notCounted (by decide)) (by decide) i _ _ _ _)

theorem gateItems_counted (i : Nat) (items : List (FaultCause × Option (Fin 12))) (s : State) :
    CountedTimes items.length .gateFaults s (items.foldl (gateItem i) s) := by
  induction items generalizing s with
  | nil => exact countedTimes_zero.2 (.refl _ _)
  | cons f items ih =>
    rw [List.length_cons, Nat.add_comm]
    exact (countedTimes_one.2 (gateItem_counted i f s)).trans (ih _)

/-- The first fault of a pocket is counted once in FIRST_FAULTS, and in no other count of faults. -/
theorem firstFault_counted (i : Nat) (k : Pocket) (f : PocketFault) (s : State) :
    Counted .firstFaults s (firstFault i k f s) ∧ NotCounted .laterFaults s (firstFault i k f s) := by
  refine ⟨?_, firstFault_follows (follows_notCounted (by decide)) (by decide) i k f s⟩
  have B := follows_notCounted (c := .firstFaults) (by decide)
  unfold firstFault
  simp only []
  have counted : Counted .firstFaults s
      (bump .firstFaults (setPocket i { k with state := .faulted, fault := some f } s)) :=
    counted_from rfl
  generalize bump .firstFaults (setPocket i { k with state := .faulted, fault := some f } s) = u
    at counted
  split
  · exact counted
  · next j c _ =>
    refine counted.before (NotCounted.trans
      (t := setContext j (some { c with lastFault := some (f.cause, f.station) }) u)
      (setContext_follows B j _ u) ?_)
    split
    · exact queueRemake_follows B (by decide) _ _ _ _
    · exact failSubscriber_follows B (by decide) _ _ _ _

theorem handFault_counted {i : Nat} {k : Pocket} {s : State} (hk : s.track.pocketAt i = some k)
    (hl : k.state = .live) (c : FaultCause) (n : Option (Fin 12)) (b : Bool) :
    Counted .firstFaults s (handFault i c n b s) ∧
    NotCounted .laterFaults s (handFault i c n b s) := by
  unfold handFault
  simp only [hk, hl]
  exact firstFault_counted _ _ _ _

/-- Every item of a FAULTED pocket is a later fault, which changes nothing but the counts (R140). -/
theorem gateItems_faulted {i : Nat} {k : Pocket} (items : List (FaultCause × Option (Fin 12)))
    {s : State} (hk : s.track.pocketAt i = some k) (hf : k.state = .faulted) :
    let t := items.foldl (gateItem i) s
    t = { s with counters := t.counters } ∧ CountedTimes items.length .laterFaults s t ∧
    NotCounted .firstFaults s t := by
  induction items generalizing s with
  | nil => exact ⟨rfl, countedTimes_zero.2 (.refl _ _), .refl _ _⟩
  | cons f items ih =>
    have item : gateItem i s f = bump .laterFaults (bump .gateFaults s) :=
      handFault_faulted (s := bump .gateFaults s) hk hf _ _ _
    obtain ⟨hsame, hlater, hfirst⟩ := ih (s := bump .laterFaults (bump .gateFaults s)) hk
    rw [List.foldl_cons, List.length_cons, Nat.add_comm, item]
    generalize List.foldl (gateItem i) _ items = t at hsame hlater hfirst
    refine ⟨by rw [hsame]; rfl, ?_, ?_⟩
    · refine CountedTimes.trans (countedTimes_one.2 ?_) hlater
      exact (bump_counted .laterFaults _).after (bump_notCounted (by decide) s)
    · exact (bump_notCounted (by decide) s).trans ((bump_notCounted (by decide) _).trans hfirst)

/-- An item of a pocket neither LIVE nor FAULTED is no fault (R11). -/
theorem gateItems_none {i : Nat} {k : Pocket} (items : List (FaultCause × Option (Fin 12)))
    {s : State} (hk : s.track.pocketAt i = some k) (hl : k.state ≠ .live)
    (hf : k.state ≠ .faulted) : (items.foldl (gateItem i) s).track = s.track := by
  induction items generalizing s with
  | nil => rfl
  | cons f items ih =>
    have item : gateItem i s f = bump .gateFaults s := by
      have hk' : (bump .gateFaults s).track.pocketAt i = some k := hk
      unfold gateItem handFault
      rw [hk']
      cases hs : k.state <;> simp_all
    rw [List.foldl_cons, item]
    exact ih (s := bump .gateFaults s) hk

/-- The first item of a LIVE pocket is its first fault, the others are later faults (R143). -/
theorem gateItems_live {i : Nat} {k : Pocket} {f : FaultCause × Option (Fin 12)}
    (items : List (FaultCause × Option (Fin 12))) {s : State} (hk : s.track.pocketAt i = some k)
    (hl : k.state = .live) :
    let t := (f :: items).foldl (gateItem i) s
    (∃ q, t.track.pocketAt i = some q ∧ q.core = { k with
      state := .faulted, fault := some { cause := f.1, station := f.2, suspect := false },
      subscriber := none }) ∧
    CountedTimes items.length .laterFaults s t ∧ Counted .firstFaults s t := by
  have hk' : (bump .gateFaults s).track.pocketAt i = some k := hk
  obtain ⟨hfirst, hlater⟩ := handFault_counted hk' hl f.1 f.2 false
  obtain ⟨q, hq, hcore⟩ := (handFault_live hk' hl f.1 f.2 false).there (setPocket_there hk' _)
  have hqf : q.state = .faulted := (congrArg Pocket.state hcore :)
  obtain ⟨hsame, hlaters, hfirsts⟩ := gateItems_faulted items hq hqf
  rw [List.foldl_cons, show gateItem i s f = handFault i f.1 f.2 false (bump .gateFaults s) from rfl]
  generalize handFault i f.1 f.2 false (bump .gateFaults s) = u at *
  have hgate {c : LineCounter} (hc : c ≠ .gateFaults) : NotCounted c s (bump .gateFaults s) :=
    bump_notCounted (Ne.symm hc) s
  generalize items.foldl (gateItem i) u = t at *
  refine ⟨⟨q, by rw [hsame]; exact hq, hcore⟩, ?_, ?_⟩
  · have := (countedTimes_zero.2 ((hgate (by decide)).trans hlater)).trans hlaters
    rwa [Nat.zero_add] at this
  · exact (hfirst.after (hgate (by decide))).before hfirsts

end Sys2Proof.Machine
end

section
/-! The arrival at REJECT: the pending set is emptied and the gate set (R143, R144). -/

namespace Sys2Proof.Machine

/-- No item pending. -/
def PendingSet.empty : PendingSet := { stations := 0, headAck := false, readBack := false }

/-- The pending set of a pocket is emptied, its entry leaving the read-back list with READ_BACK (R143). -/
def emptyPending (i : Nat) (k : Pocket) (s : State) : State :=
  setPocket i { k with pend := .empty } (applyIf k.pend.readBack (dropReadBack i k) s)

theorem gateFaults_eq {i : Nat} {k q : Pocket} {s : State}
    (h : ((pendingFaults k).foldl (gateItem i) s).track.pocketAt i = some q) :
    gateFaults i k s = emptyPending i q ((pendingFaults k).foldl (gateItem i) s) := by
  have h' : ((pendingFaults k).foldl
      (fun t f => handFault i f.1 f.2 false (bump .gateFaults t)) s).track.pocketAt i = some q := h
  unfold gateFaults
  simp only [h']
  rfl

theorem emptyPending_fields {i : Nat} {k : Pocket} {s : State} (hk : s.track.pocketAt i = some k) :
    let t := emptyPending i k s
    t.track.pocketAt i = some { k with pend := .empty } ∧ t.counters = s.counters ∧
    t.remakes = s.remakes ∧
    (k.pend.readBack = true → t.print = { s.print with
      readBacks := s.print.readBacks.filter fun r => r.pocket ≠ k.serial }) ∧
    (k.pend.readBack = false → t.print = s.print) := by
  have hi := Track.pocketAt_lt hk
  unfold emptyPending applyIf
  cases k.pend.readBack with
  | true => exact ⟨(setPocket_at hi _ _ i).trans (if_pos rfl), rfl, rfl, fun _ => rfl, by simp⟩
  | false => exact ⟨(setPocket_at hi _ _ i).trans (if_pos rfl), rfl, rfl, by simp, fun _ => rfl⟩

/-- The record that the faults at the gate leave of a pocket, but for its reference (R143). -/
def Pocket.gated (k : Pocket) : Pocket :=
  match k.state, pendingFaults k with
  | .live, f :: _ => { k with
      state := .faulted, pend := .empty,
      fault := some { cause := f.1, station := f.2, suspect := false } }
  | _, _ => { k with pend := .empty }

/-- What the items still pending leave of the pocket (R143). -/
theorem gateItems_record {i : Nat} {k : Pocket} {s : State} (hk : s.track.pocketAt i = some k) :
    ∃ q, ((pendingFaults k).foldl (gateItem i) s).track.pocketAt i = some q ∧
      q.pend = k.pend ∧ q.serial = k.serial ∧
      ({ q with pend := .empty } : Pocket).core = k.gated.core := by
  by_cases hl : k.state = .live
  · cases hp : pendingFaults k with
    | nil => exact ⟨k, hk, rfl, rfl, by simp [Pocket.gated, hl, hp]⟩
    | cons f items =>
      obtain ⟨⟨q, hq, hc⟩, -⟩ := gateItems_live (f := f) items hk hl
      refine ⟨q, hq, (congrArg Pocket.pend hc :), (congrArg Pocket.serial hc :), ?_⟩
      have hc' := congrArg (fun r : Pocket => { r with pend := .empty }) hc
      refine Eq.trans ?_ (hc'.trans ?_)
      · rfl
      · simp [Pocket.gated, Pocket.core, hl, hp]
  · have hg : k.gated = { k with pend := .empty } := by
      unfold Pocket.gated; split
      · contradiction
      · rfl
    rw [hg]
    by_cases hf : k.state = .faulted
    · obtain ⟨hsame, -⟩ := gateItems_faulted (pendingFaults k) hk hf
      exact ⟨k, by rw [hsame]; exact hk, rfl, rfl, rfl⟩
    · exact ⟨k, by rw [gateItems_none _ hk hl hf]; exact hk, rfl, rfl, rfl⟩

/-- The faults at the gate: the record, the read-back list and the counts (R108, R143). -/
theorem gateFaults_record {i : Nat} {k : Pocket} {s : State} (hk : s.track.pocketAt i = some k) :
    let t := gateFaults i k s
    (∃ q, t.track.pocketAt i = some q ∧ q.pend = .empty ∧ q.core = k.gated.core) ∧
    t.counters = ((pendingFaults k).foldl (gateItem i) s).counters ∧
    t.remakes = ((pendingFaults k).foldl (gateItem i) s).remakes ∧
    (k.pend.readBack = true → t.print = { s.print with
      readBacks := s.print.readBacks.filter fun r => r.pocket ≠ k.serial }) ∧
    (k.pend.readBack = false → t.print = s.print) := by
  obtain ⟨q, hq, hpend, hserial, hcore⟩ := gateItems_record hk
  obtain ⟨hat, hcount, hrem, hyes, hno⟩ := emptyPending_fields hq
  have hprint : ((pendingFaults k).foldl (gateItem i) s).print = s.print :=
    foldl_proj State.print (gateItem i) (fun u f => by simp [gateItem]) _ s
  rw [hpend, hserial, hprint] at hyes
  rw [hpend, hprint] at hno
  rw [gateFaults_eq hq]
  exact ⟨⟨_, hat, rfl, hcore⟩, hcount, hrem, hyes, hno⟩

/-! ## The gate -/

theorem setGate_faulted {i : Nat} {q : Pocket} {s : State} (hq : s.track.pocketAt i = some q)
    (h : q.state = .faulted) :
    setGate i s =
      bump .diverts { setPocket i { q with state := .diverted } s with gate := .divert } := by
  simp only [setGate, hq, h]

theorem setGate_live {i : Nat} {q : Pocket} {s : State} (hq : s.track.pocketAt i = some q)
    (h : q.state = .live) : setGate i s = bump .passes { s with gate := .pass } := by
  simp only [setGate, hq, h]

theorem setGate_empty {i : Nat} {q : Pocket} {s : State} (hq : s.track.pocketAt i = some q)
    (h : q.state = .empty) : setGate i s = { s with gate := .pass } := by
  simp only [setGate, hq, h]

/-- The state of a pocket behind the gate (R144). -/
def PocketState.behindGate (x : PocketState) : PocketState := if x = .faulted then .diverted else x

/-- The gate changes the state of a FAULTED pocket, and counts but DIVERTS and PASSES nothing (R144). -/
theorem setGate_rest {i : Nat} {q : Pocket} {s : State} (hq : s.track.pocketAt i = some q) :
    let t := setGate i s
    t.track.pocketAt i = some { q with state := q.state.behindGate } ∧ t.print = s.print ∧
    t.remakes = s.remakes ∧ ∀ c, c ≠ .diverts → c ≠ .passes → NotCounted c s t := by
  have stays {x : PocketState} (h : q.state = x) (hx : x ≠ .faulted) :
      s.track.pocketAt i = some { q with state := x.behindGate } := by
    rw [PocketState.behindGate, if_neg hx, ← h]; exact hq
  cases hs : q.state with
  | faulted =>
    rw [setGate_faulted hq hs]
    exact ⟨setPocket_there hq _, rfl, rfl, fun c hd _ =>
      NotCounted.trans (t := { setPocket i { q with state := .diverted } s with gate := .divert })
        (notCounted_quiet rfl) (bump_notCounted (Ne.symm hd) _)⟩
  | live =>
    rw [setGate_live hq hs]
    exact ⟨stays hs (by decide), rfl, rfl, fun c _ hp =>
      NotCounted.trans (t := { s with gate := .pass }) (notCounted_quiet rfl)
        (bump_notCounted (Ne.symm hp) _)⟩
  | empty =>
    rw [setGate_empty hq hs]
    exact ⟨stays hs (by decide), rfl, rfl, fun c _ _ => notCounted_quiet rfl⟩
  | diverted =>
    have hsame : setGate i s = s := by simp only [setGate, hq, hs]
    rw [hsame]
    exact ⟨stays hs (by decide), rfl, rfl, fun c _ _ => .refl c s⟩
  | delivered =>
    have hsame : setGate i s = s := by simp only [setGate, hq, hs]
    rw [hsame]
    exact ⟨stays hs (by decide), rfl, rfl, fun c _ _ => .refl c s⟩

end Sys2Proof.Machine
end

section
/-! What the arrival at REJECT says of each state of its pocket (R142 to R144). -/

namespace Sys2Proof.Machine

theorem Pocket.gated_serial (k : Pocket) : k.gated.serial = k.serial := by
  unfold Pocket.gated; split <;> rfl

/-- The record and the read-back list behind the gate (R108, R143, R144). -/
theorem rejectArrival_record {p : Profile} {i : Nat} {k : Pocket} {s : State}
    (h : pocketThere p p.rejectPos s = some (i, k)) :
    let t := rejectArrival p s
    (∃ q, t.track.pocketAt i = some q ∧
      q.core = { k.gated.core with state := k.gated.state.behindGate } ∧ q.pend = .empty) ∧
    (k.pend.readBack = true → t.print = { s.print with
      readBacks := s.print.readBacks.filter fun r => r.pocket ≠ k.serial }) ∧
    (k.pend.readBack = false → t.print = s.print) ∧
    t.remakes = ((pendingFaults k).foldl (gateItem i) s).remakes ∧
    (∀ c, c ≠ .diverts → c ≠ .passes →
      NotCounted c ((pendingFaults k).foldl (gateItem i) s) t) := by
  obtain ⟨-, hk⟩ := pocketThere_some h
  obtain ⟨⟨q, hq, hpend, hcore⟩, hcounts, hrem, hyes, hno⟩ := gateFaults_record hk
  obtain ⟨hat, hprint, hrem', hrest⟩ := setGate_rest hq
  have hstate : q.state = k.gated.state := (congrArg Pocket.state hcore :)
  simp only [rejectArrival, h]
  refine ⟨⟨_, hat, ?_, hpend⟩, ?_, ?_, hrem'.trans hrem, ?_⟩
  · rw [← hcore, ← hstate]; rfl
  · exact fun hr => hprint.trans (hyes hr)
  · exact fun hr => hprint.trans (hno hr)
  · exact fun c hd hp => (notCounted_quiet hcounts).trans (hrest c hd hp)

/-- The gate as the state that the faults leave gives it (R144). -/
theorem rejectArrival_gate {p : Profile} {i : Nat} {k : Pocket} {s : State}
    (h : pocketThere p p.rejectPos s = some (i, k)) :
    let t := rejectArrival p s
    let u := (pendingFaults k).foldl (gateItem i) s
    (k.gated.state = .faulted → t.gate = .divert ∧ Counted .diverts s t) ∧
    (k.gated.state = .live → t.gate = .pass ∧ Counted .passes s t ∧ OnlyCounted [.passes] u t) ∧
    (k.gated.state = .empty → t.gate = .pass ∧ NotCounted .passes s t ∧ NotCounted .diverts s t) := by
  obtain ⟨-, hk⟩ := pocketThere_some h
  obtain ⟨⟨q, hq, -, hcore⟩, hcounts, -⟩ := gateFaults_record hk
  have hstate : q.state = k.gated.state := (congrArg Pocket.state hcore :)
  have hdiverts := gateItems_notCounted (c := .diverts) (by decide) (by decide) (by decide) i
    (pendingFaults k) s
  have hpasses := gateItems_notCounted (c := .passes) (by decide) (by decide) (by decide) i
    (pendingFaults k) s
  have e : rejectArrival p s = setGate i (gateFaults i k s) := by simp only [rejectArrival, h]
  rw [e, ← hstate]
  generalize gateFaults i k s = v at hq hcounts
  generalize (pendingFaults k).foldl (gateItem i) s = u at hcounts hdiverts hpasses
  refine ⟨fun hs => ?_, fun hs => ?_, fun hs => ?_⟩
  · rw [setGate_faulted hq hs]
    have counted : Counted .diverts u (bump .diverts { setPocket i { q with state := .diverted } v with
      gate := .divert }) := counted_from hcounts
    exact ⟨rfl, counted.after hdiverts⟩
  · rw [setGate_live hq hs]
    have counted : Counted .passes u (bump .passes { v with gate := .pass }) := counted_from hcounts
    exact ⟨rfl, counted.after hpasses, onlyCounted_from hcounts⟩
  · rw [setGate_empty hq hs]
    have same {c : LineCounter} : NotCounted c u { v with gate := .pass } := notCounted_quiet hcounts
    exact ⟨rfl, hpasses.trans same, hdiverts.trans same⟩

/-- The counts of the faults at the gate (R143). -/
theorem rejectArrival_counts {p : Profile} {i : Nat} {k : Pocket} {s : State}
    (h : pocketThere p p.rejectPos s = some (i, k)) :
    let t := rejectArrival p s
    CountedTimes (pendingFaults k).length .gateFaults s t ∧
    (k.state = .live → CountedTimes ((pendingFaults k).length - 1) .laterFaults s t ∧
      CountedTimes (min 1 (pendingFaults k).length) .firstFaults s t) ∧
    (k.state = .faulted → CountedTimes (pendingFaults k).length .laterFaults s t ∧
      NotCounted .firstFaults s t) := by
  obtain ⟨-, hk⟩ := pocketThere_some h
  obtain ⟨-, -, -, -, hrest⟩ := rejectArrival_record h
  have after {n : Nat} {c : LineCounter} (hd : c ≠ .diverts) (hp : c ≠ .passes)
      (hc : CountedTimes n c s ((pendingFaults k).foldl (gateItem i) s)) :
      CountedTimes n c s (rejectArrival p s) := hc.trans (countedTimes_zero.2 (hrest c hd hp))
  refine ⟨after (by decide) (by decide) (gateItems_counted i _ s), fun hl => ?_, fun hf => ?_⟩
  · cases hp : pendingFaults k with
    | nil =>
      rw [hp] at after
      exact ⟨after (by decide) (by decide) (countedTimes_zero.2 (.refl _ _)),
        after (by decide) (by decide) (countedTimes_zero.2 (.refl _ _))⟩
    | cons f items =>
      obtain ⟨-, hlater, hfirst⟩ := gateItems_live (f := f) items hk hl
      rw [hp] at after
      have hone : min 1 (f :: items).length = 1 := by simp
      rw [hone]
      exact ⟨after (by decide) (by decide) hlater,
        after (by decide) (by decide) (countedTimes_one.2 hfirst)⟩
  · obtain ⟨-, hlater, hfirst⟩ := gateItems_faulted (pendingFaults k) hk hf
    exact ⟨after (by decide) (by decide) hlater, hfirst.trans (hrest _ (by decide) (by decide))⟩

end Sys2Proof.Machine
end

section
/-! The close of bundles: what leaves the table, and the stacker's commands in their order (R159 to R164). -/

namespace Sys2Proof.Machine

/-! ## The stacker queue -/

/-- The commands of the stacker in their order: the one whose pulse is in progress, then those held. -/
def commandsOf (s : State) : List StackerCommand := s.stacker.pulse.toList ++ s.stacker.held

/-- Commands only join the tail: held ones wait for a pulse in progress (R164). -/
def Queues (s t : State) : Prop :=
  (s.stacker.pulse = none → s.stacker.held = []) →
    (t.stacker.pulse = none → t.stacker.held = []) ∧ ∃ more, commandsOf t = commandsOf s ++ more

theorem Queues.trans {s t u : State} (h : Queues s t) (k : Queues t u) : Queues s u := by
  intro hs
  obtain ⟨ht, a, ha⟩ := h hs
  obtain ⟨hu, b, hb⟩ := k ht
  exact ⟨hu, a ++ b, by rw [hb, ha, List.append_assoc]⟩

theorem Queues.of_same {s t : State} (h : t.stacker = s.stacker) : Queues s t := by
  intro hs
  rw [commandsOf, commandsOf, h]
  exact ⟨hs, [], (List.append_nil _).symm⟩

/-- The counts of a command that is issued (R165, R167). -/
def countedCommand (c : StackerCommand) (s : State) : State :=
  applyIf (!(bump (commandCounter c) s).inputs.stackerReady) (bump .stackerUnready)
    (bump (commandCounter c) s)

@[simp] theorem countedCommand_rest (c : StackerCommand) (s : State) :
    (countedCommand c s).stacker = s.stacker ∧ (countedCommand c s).sent = s.sent ∧
    (countedCommand c s).link = s.link ∧ (countedCommand c s).fetcher = s.fetcher := by
  unfold countedCommand applyIf
  split <;> exact ⟨rfl, rfl, rfl, rfl⟩

theorem issueCommand_begins (c : StackerCommand) {s : State} (h : s.stacker.pulse = none) :
    issueCommand c s = send (.pulse c)
      { countedCommand c s with stacker := { s.stacker with pulse := some c } } := by
  have hs := (countedCommand_rest c s).1
  have h' : (countedCommand c s).stacker.pulse = none := by rw [hs, h]
  rw [← hs]
  change (match (countedCommand c s).stacker.pulse with | none => _ | some _ => _) = _
  rw [h']
  rfl

theorem issueCommand_holds (c : StackerCommand) {s : State} {d : StackerCommand}
    (h : s.stacker.pulse = some d) :
    issueCommand c s =
      { countedCommand c s with stacker := { s.stacker with held := s.stacker.held ++ [c] } } := by
  have hs := (countedCommand_rest c s).1
  have h' : (countedCommand c s).stacker.pulse = some d := by rw [hs, h]
  rw [← hs]
  change (match (countedCommand c s).stacker.pulse with | none => _ | some _ => _) = _
  rw [h']
  rfl

/-- A command joins the tail, and its pulse begins where none is in progress (R164). -/
theorem issueCommand_joins {c : StackerCommand} {s : State}
    (h : s.stacker.pulse = none → s.stacker.held = []) :
    (issueCommand c s).stacker.pulse ≠ none ∧ commandsOf (issueCommand c s) = commandsOf s ++ [c] := by
  cases hp : s.stacker.pulse with
  | none => simp [issueCommand_begins c hp, commandsOf, send, hp, h hp]
  | some d => simp [issueCommand_holds c hp, commandsOf, hp]

theorem issueCommand_queues (c : StackerCommand) (s : State) : Queues s (issueCommand c s) := by
  intro h
  obtain ⟨hp, hc⟩ := issueCommand_joins (c := c) h
  exact ⟨fun e => absurd e hp, [c], hc⟩

theorem applyIf_queues {c : Bool} {f : State → State} (h : ∀ s, Queues s (f s)) (s : State) :
    Queues s (applyIf c f s) := by
  unfold applyIf; split
  · exact h s
  · exact .of_same rfl

/-! ## One close -/

theorem removeBundle_bundles (b : Bundle) (c : CloseState) (s : State) :
    (removeBundle b c s).bundles = s.bundles.filter fun d => d.ordinal ≠ b.ordinal := by
  simp [removeBundle]

/-- A close takes its bundle out of the table (R161). -/
theorem closeBundle_bundles (b : Bundle) (w : Word) (s : State) :
    (closeBundle b w s).bundles = s.bundles.filter fun d => d.ordinal ≠ b.ordinal := by
  unfold closeBundle applyIf
  simp only [removeBundle_bundles]
  congr 1
  split <;> split <;> simp

theorem closeBundle_queues (b : Bundle) (w : Word) (s : State) : Queues s (closeBundle b w s) := by
  unfold closeBundle
  simp only []
  refine Queues.trans ?_ (.of_same (removeBundle_stacker b b.closeState _))
  refine Queues.trans (t := applyIf b.trayEnd (issueCommand .trayBreak)
    (applyIf (decide (0 < b.delivered)) (issueCommand .bundleEject) s)) ?_ (.of_same ?_)
  · exact (applyIf_queues (issueCommand_queues .bundleEject) s).trans
      (applyIf_queues (issueCommand_queues .trayBreak) _)
  · simp

/-- The front bundle leaves alone, where no other has its ordinal. -/
theorem filter_front {b : Bundle} {rest : List Bundle} (h : ((b :: rest).map Bundle.ordinal).Nodup) :
    ((b :: rest).filter fun d => d.ordinal ≠ b.ordinal) = rest := by
  rw [List.map_cons, List.nodup_cons] at h
  have keep : ∀ d ∈ rest, d.ordinal ≠ b.ordinal := fun d hd e =>
    h.1 (e ▸ List.mem_map_of_mem hd)
  simpa using keep

/-- The bundles that wait behind a close leave with it, up to the first that does not wait (R160). -/
theorem closeWaiting_bundles (w : Word) (rest : List Bundle) {s : State} (h : s.bundles = rest)
    (hn : (rest.map Bundle.ordinal).Nodup) :
    (closeWaiting w rest s).bundles = rest.dropWhile fun d => decide (d.state = .doneWaiting) := by
  induction rest generalizing s with
  | nil => simpa [closeWaiting] using h
  | cons b rest ih =>
    unfold closeWaiting
    by_cases hb : b.state = .doneWaiting
    · rw [if_pos hb, List.dropWhile_cons_of_pos (by simpa using hb)]
      refine ih ?_ (List.nodup_cons.mp hn).2
      rw [closeBundle_bundles, h, filter_front hn]
    · rw [if_neg hb, List.dropWhile_cons_of_neg (by simpa using hb), h]

theorem closeWaiting_queues (w : Word) (rest : List Bundle) (s : State) :
    Queues s (closeWaiting w rest s) := by
  induction rest generalizing s with
  | nil => exact .of_same rfl
  | cons b rest ih =>
    unfold closeWaiting; split
    · exact (closeBundle_queues b w s).trans (ih _)
    · exact .of_same rfl

/-- The front bundle closes, and those that wait behind it (R160). -/
theorem closeFront_bundles (w : Word) {s : State} (hn : (s.bundles.map Bundle.ordinal).Nodup) :
    (closeFront w s).bundles = s.bundles.tail.dropWhile fun d => decide (d.state = .doneWaiting) := by
  unfold closeFront
  cases h : s.bundles with
  | nil => simp [h]
  | cons b rest =>
    rw [h] at hn
    refine closeWaiting_bundles w rest ?_ (List.nodup_cons.mp hn).2
    rw [closeBundle_bundles, h, filter_front hn]

theorem closeFront_queues (w : Word) (s : State) : Queues s (closeFront w s) := by
  unfold closeFront; split
  · exact .of_same rfl
  · exact (closeBundle_queues _ w s).trans (closeWaiting_queues w _ _)

/-! ## The resolution test -/

theorem endWindow_bundles (n : Nat) (s : State) :
    (endWindow n s).bundles = s.bundles.map fun b =>
      if b.ordinal = n then { b with state := .settling } else b := by
  simp [endWindow, updateBundle]

theorem resolutionTest_queues (n : Nat) (w : Word) (s : State) : Queues s (resolutionTest n w s) := by
  unfold resolutionTest
  split
  · exact .of_same rfl
  · next b _ =>
    split
    · have window : Queues s (applyIf b.inWindow (endWindow n) s) :=
        applyIf_queues (fun u => .of_same (by simp [endWindow])) s
      simp only []
      refine window.trans ?_
      split
      · exact closeFront_queues w _
      · exact .of_same (by simp)
    · exact .of_same rfl

end Sys2Proof.Machine
end

section
/-! A rise of a bundle's sum and the resolution test behind it (R159, R160). -/

namespace Sys2Proof.Machine

/-- A change of a bundle that leaves what the resolution test asks for. -/
def KeepsAccount (f : Bundle → Bundle) : Prop :=
  ∀ b, (f b).ordinal = b.ordinal ∧ (f b).size = b.size ∧ (f b).state = b.state

/-- The change of the one bundle of an ordinal. -/
def atOrdinal (n : Nat) (f : Bundle → Bundle) (b : Bundle) : Bundle :=
  if b.ordinal = n then f b else b

theorem atOrdinal_ordinal {n : Nat} {f : Bundle → Bundle} (hf : ∀ b, (f b).ordinal = b.ordinal)
    (b : Bundle) : (atOrdinal n f b).ordinal = b.ordinal := by
  unfold atOrdinal; split
  · exact hf b
  · rfl

theorem bundleAt_some {n : Nat} {s : State} {g : Bundle} (h : bundleAt n s = some g) :
    g.ordinal = n := by
  have := List.find?_some h
  simpa using this

theorem bundleAt_changed {n : Nat} {f : Bundle → Bundle} {s u : State} {g : Bundle}
    (hf : ∀ b, (f b).ordinal = b.ordinal) (hu : u.bundles = s.bundles.map (atOrdinal n f))
    (hg : bundleAt n s = some g) : bundleAt n u = some (f g) := by
  have same : ((fun b : Bundle => b.ordinal == n) ∘ atOrdinal n f) = fun b => b.ordinal == n := by
    funext b; simp [atOrdinal_ordinal hf]
  unfold bundleAt at hg ⊢
  rw [hu, List.find?_map, same, hg, Option.map_some, atOrdinal, if_pos (bundleAt_some hg)]

/-- The front bundle is the one asked for just where its ordinal is. -/
theorem head_ordinal {n : Nat} {s : State} {g : Bundle} (hg : bundleAt n s = some g) :
    (s.bundles.head?.any fun b => b.ordinal == n) = true ↔ s.bundles.head? = some g := by
  have hn := bundleAt_some hg
  unfold bundleAt at hg
  cases hs : s.bundles with
  | nil => simp
  | cons b rest =>
    rw [hs] at hg
    simp only [List.head?_cons, Option.any_some, Option.some.injEq]
    constructor
    · intro hb
      simp only [List.find?_cons, hb] at hg
      exact Option.some.inj hg
    · rintro rfl
      simpa using hn

/-- The bundles behind the front one are not of its ordinal. -/
theorem map_atOrdinal_tail {n : Nat} {f : Bundle → Bundle} {s : State} {g : Bundle}
    (hg : bundleAt n s = some g) (hn : (s.bundles.map Bundle.ordinal).Nodup)
    (hh : s.bundles.head? = some g) : (s.bundles.map (atOrdinal n f)).tail = s.bundles.tail := by
  have ho := bundleAt_some hg
  cases hs : s.bundles with
  | nil => rfl
  | cons b rest =>
    rw [hs] at hn hh
    obtain rfl : b = g := Option.some.inj hh
    rw [List.map_cons, List.nodup_cons] at hn
    rw [List.map_cons, List.tail_cons, List.tail_cons]
    refine (List.map_congr_left fun d hd => if_neg fun e => hn.1 ?_).trans (List.map_id _)
    rw [ho, ← e]
    exact List.mem_map_of_mem hd

/-- What the resolution test leaves of the bundles after a count of one has risen (R159, R160). -/
theorem resolutionTest_bundles {n : Nat} {f : Bundle → Bundle} {s u : State} (w : Word)
    (hf : KeepsAccount f) (hu : u.bundles = s.bundles.map (atOrdinal n f)) :
    BundleCounts n f s (resolutionTest n w u) := by
  intro g hg
  obtain ⟨-, hsize, hstate⟩ := hf g
  have hfo (b : Bundle) : (f b).ordinal = b.ordinal := (hf b).1
  have hat := bundleAt_changed hfo hu hg
  unfold resolutionTest
  rw [hat]
  simp only []
  rw [hsize, hstate]
  refine ⟨fun hres => ?_, fun hres hn => ?_⟩
  · rw [if_neg (by simpa using hres)]
    exact hu
  rw [if_pos (by simpa using hres)]
  obtain ⟨h, hh, hsettled, hv⟩ : ∃ h : Bundle → Bundle, (∀ b, (h b).ordinal = b.ordinal) ∧
      (∀ b, ({ h b with state := .doneWaiting } : Bundle) = { f b with state := .doneWaiting }) ∧
      (applyIf (f g).inWindow (endWindow n) u).bundles = s.bundles.map (atOrdinal n h) := by
    unfold applyIf
    split
    · refine ⟨fun b => { f b with state := .settling }, hfo, fun b => rfl, ?_⟩
      rw [endWindow_bundles, hu, List.map_map]
      refine List.map_congr_left fun b _ => ?_
      by_cases hb : b.ordinal = n <;> simp [atOrdinal, hb, hfo]
    · exact ⟨f, hfo, fun _ => rfl, hu⟩
  generalize applyIf (f g).inWindow (endWindow n) u = v at hv
  have hg' := bundleAt_changed hh hv hg
  have hordinals : v.bundles.map Bundle.ordinal = s.bundles.map Bundle.ordinal := by
    rw [hv, List.map_map]
    exact List.map_congr_left fun b _ => atOrdinal_ordinal hh b
  have hfront : (v.bundles.head?.any fun b => b.ordinal == n) =
      s.bundles.head?.any fun b => b.ordinal == n := by
    rw [hv]
    cases s.bundles <;> simp [atOrdinal_ordinal hh]
  rw [hfront]
  refine ⟨fun hd => ?_, fun hd => ?_⟩
  · rw [if_pos ((head_ordinal hg).2 hd), closeFront_bundles w (by rw [hordinals]; exact hn), hv,
      map_atOrdinal_tail hg hn hd]
  · rw [if_neg (fun e => hd ((head_ordinal hg).1 e))]
    simp only [updateBundle, hv, List.map_map]
    refine List.map_congr_left fun b _ => ?_
    have hb : (atOrdinal n h b).ordinal = n ↔ b.ordinal = n := by rw [atOrdinal_ordinal hh]
    refine (if_congr hb rfl rfl).trans ?_
    split
    · next hb => rw [atOrdinal, if_pos hb]; exact hsettled b
    · next hb => exact if_neg hb

/-! ## A final outcome with the link open -/

theorem sent_hostWrite {s : State} (h : LinkOpen s) (a : Address) (d : List Byte) :
    (hostWrite a d s).sent = s.sent ++ [.write a d] ∧ LinkOpen (hostWrite a d s) := by
  rw [hostWrite_open h]
  exact ⟨rfl, h⟩

/-- The writes of an outcome into its page, the outcome half and then the final count (R43). -/
def outcomeHalf (q : OpenPage) (recordSlot : Nat) (f : OutcomeFields) (o : PieceOutcome) :
    List Message :=
  let record := recordAddress q.address recordSlot
  [.write (record + 0xE1) f.bytes, .write (record + 0xE8) (leBytes 4 f.pocketSerial.toNat),
   .write (record + 0xE0) (leBytes 1 o.code), .write (q.address + 0x14) (leBytes 2 (q.final + 1))]

theorem writeOutcomeHalf_sent {s : State} (h : LinkOpen s) (a : Address) (f : OutcomeFields)
    (o : PieceOutcome) : (writeOutcomeHalf a f o s).sent = s.sent ++
      [.write (a + 0xE1) f.bytes, .write (a + 0xE8) (leBytes 4 f.pocketSerial.toNat),
        .write (a + 0xE0) (leBytes 1 o.code)] ∧ LinkOpen (writeOutcomeHalf a f o s) := by
  unfold writeOutcomeHalf
  obtain ⟨e1, h1⟩ := sent_hostWrite h (a + 0xE1) f.bytes
  obtain ⟨e2, h2⟩ := sent_hostWrite h1 (a + 0xE8) (leBytes 4 f.pocketSerial.toNat)
  obtain ⟨e3, h3⟩ := sent_hostWrite h2 (a + 0xE0) (leBytes 1 o.code)
  exact ⟨by rw [e3, e2, e1]; simp, h3⟩

theorem putOutcome_sent {n : Nat} {q : OpenPage} {s : State} (hq : pageAt n s = some q)
    (h : LinkOpen s) (k : Nat) (f : OutcomeFields) (o : PieceOutcome) :
    (putOutcome n k f o s).sent = s.sent ++ outcomeHalf q k f o ∧ LinkOpen (putOutcome n k f o s) := by
  have hb : pageAt n (bump (outcomeCounter o) s) = some q := hq
  have hacc : accessStopped (bump (outcomeCounter o) s) = false := decide_eq_false h.2.1
  have ho : LinkOpen (bump (outcomeCounter o) s) := h
  have hsent : (bump (outcomeCounter o) s).sent = s.sent := rfl
  unfold putOutcome
  simp only [hb, hacc, Bool.false_eq_true, if_false]
  generalize bump (outcomeCounter o) s = u at ho hsent
  obtain ⟨e1, h1⟩ := writeOutcomeHalf_sent ho (recordAddress q.address k) f o
  generalize writeOutcomeHalf (recordAddress q.address k) f o u = v at e1 h1
  obtain ⟨e2, h2⟩ := sent_hostWrite h1 (q.address + 0x14) (leBytes 2 (q.final + 1))
  generalize hostWrite (q.address + 0x14) (leBytes 2 (q.final + 1)) v = x at e2 h2
  refine ⟨?_, h2⟩
  change x.sent = _
  rw [e2, e1, hsent]
  simp [outcomeHalf]

/-- The writes of an outcome come first, and what a page close brings comes behind (R43, R45). -/
theorem writeOutcome_sent {n : Nat} {q : OpenPage} {s : State} (hq : pageAt n s = some q)
    (h : LinkOpen s) (k : Nat) (f : OutcomeFields) (o : PieceOutcome) :
    ∃ more, (writeOutcome n k f o s).sent = s.sent ++ outcomeHalf q k f o ++ more := by
  obtain ⟨hs, -⟩ := putOutcome_sent hq h k f o
  obtain ⟨⟨more, hm⟩, -⟩ := closeIfSettled_follows follows_flows n (putOutcome n k f o s)
  exact ⟨more, by rw [writeOutcome, hm, hs]⟩

/-- An outcome is counted once (R43). -/
theorem writeOutcome_counted (n k : Nat) (f : OutcomeFields) (o : PieceOutcome)
    (ho : outcomeCounter o ≠ .interrupts) (s : State) :
    Counted (outcomeCounter o) s (writeOutcome n k f o s) := by
  have B := follows_notCounted ho
  refine Counted.before ?_ (closeIfSettled_follows B n _)
  unfold putOutcome
  simp only []
  refine (bump_counted (outcomeCounter o) s).before ?_
  generalize bump (outcomeCounter o) s = u
  split
  · exact .refl _ _
  · split
    · exact .refl _ _
    · next q _ _ =>
      refine NotCounted.trans (writeOutcomeHalf_follows B (recordAddress q.address k) f o u) ?_
      generalize writeOutcomeHalf (recordAddress q.address k) f o u = v
      exact NotCounted.trans (B.write (q.address + 0x14) (leBytes 2 (q.final + 1)) v)
        (updatePage_follows B _ _ _)

end Sys2Proof.Machine
end

section
/-! The arrival at the last position (R163). -/

namespace Sys2Proof.Machine

/-! ## The command -/

/-- A command is counted once, and is sent where its pulse begins at once (R164, R165). -/
theorem issueCommand_counted (c : StackerCommand) (h : commandCounter c ≠ .stackerUnready)
    (hi : commandCounter c ≠ .interrupts) (s : State) :
    Counted (commandCounter c) s (issueCommand c s) := by
  have counted : Counted (commandCounter c) s (countedCommand c s) :=
    (bump_counted (commandCounter c) s).before
      (applyIf_follows (follows_notCounted hi) fun u => bump_notCounted h.symm u)
  refine counted.before ?_
  cases hp : s.stacker.pulse with
  | none => rw [issueCommand_begins c hp]; exact notCounted_quiet rfl
  | some d => rw [issueCommand_holds c hp]; exact notCounted_quiet rfl

theorem issueCommand_sent (c : StackerCommand) (s : State) :
    (issueCommand c s).sent = s.sent ++ (if s.stacker.pulse = none then [.pulse c] else []) ∧
    (LinkOpen s → LinkOpen (issueCommand c s)) := by
  obtain ⟨-, hsent, hlink, hfet⟩ := countedCommand_rest c s
  have ho : LinkOpen s → LinkOpen (countedCommand c s) := by unfold LinkOpen; rw [hlink, hfet]; exact id
  cases hp : s.stacker.pulse with
  | none =>
    rw [issueCommand_begins c hp, if_pos rfl]
    exact ⟨by rw [← hsent]; rfl, ho⟩
  | some d =>
    rw [issueCommand_holds c hp, if_neg (by simp), List.append_nil]
    exact ⟨hsent, ho⟩

/-! ## A delivery up to the resolution test -/

/-- The steps of a delivery up to the freeing of the context, with the bundles counted (R163). -/
def delivered (i : Nat) (k : Pocket) (j : Nat) (c : Context) (m : StackerCommand) (o : PieceOutcome)
    (bs : List Bundle) (s : State) : State :=
  freeContext j (writeOutcome c.pageSlot c.recordSlot (c.outcomeFields k.serial) o
    { setPocket i { k with state := .delivered } (issueCommand m s) with bundles := bs })

/-- One more subscriber of the bundle was delivered (R163). -/
def Bundle.stacked (b : Bundle) : Bundle := { b with delivered := b.delivered + 1 }

theorem deliver_inSort {c : Context} (h : c.sort = .inSort) (i : Nat) (k : Pocket) (j : Nat) (s : State) :
    deliver i k j c s = resolutionTest c.ordinal k.serial (delivered i k j c .stack .mailed
      (s.bundles.map (atOrdinal c.ordinal Bundle.stacked)) s) := by
  have hb : (issueCommand .stack s).bundles = s.bundles := by simp
  unfold deliver delivered
  rw [h, ← hb]
  rfl

theorem deliver_oos {c : Context} (h : c.sort = .oos) (i : Nat) (k : Pocket) (j : Nat) (s : State) :
    deliver i k j c s = delivered i k j c .oosExit .mailedOos s.bundles s := by
  have hb : (issueCommand .oosExit s).bundles = s.bundles := by simp
  unfold deliver delivered
  rw [h, ← hb]
  rfl

theorem outcomeHalf_eq (q : OpenPage) (c : Context) (w : Word) (o : PieceOutcome) :
    outcomeHalf q c.recordSlot (c.outcomeFields w) o = outcomeWrites q c w o := by
  unfold outcomeHalf outcomeWrites OutcomeFields.bytes OutcomeFields.causeCode
    OutcomeFields.stationCode Context.outcomeFields recordAddress
  rcases c.lastFault with _ | ⟨f, _ | n⟩ <;> rfl

/-- The pocket, the contexts, the collections and the stacker after these steps. -/
theorem delivered_fields {i : Nat} {k : Pocket} {j : Nat} {c : Context} {s : State}
    (hk : s.track.pocketAt i = some k) (hc : pocketContext k s = some (j, c)) (m : StackerCommand)
    (o : PieceOutcome) (bs : List Bundle) :
    let t := delivered i k j c m o bs s
    t.track.pocketAt i = some { k with state := .delivered, subscriber := none } ∧
    contextAt j t = none ∧ (∀ l, l ≠ j → contextAt l t = contextAt l s) ∧
    t.stacker = (issueCommand m s).stacker ∧ t.bundles = bs ∧ t.remakes = s.remakes := by
  obtain ⟨-, r, hr, hrj⟩ := pocketContext_some hc
  obtain ⟨-, -, -, -, -, icon, -, itrack, -, -, -, -, -, irem, -⟩ := issueCommand_frame m s
  have hstart : ({ setPocket i { k with state := .delivered } (issueCommand m s) with
      bundles := bs } : State).track.pocketAt i = some { k with state := .delivered } :=
    setPocket_there (by rw [itrack]; exact hk) _
  have hctx : ({ setPocket i { k with state := .delivered } (issueCommand m s) with
      bundles := bs } : State).contexts = s.contexts := icon
  have hrem : ({ setPocket i { k with state := .delivered } (issueCommand m s) with
      bundles := bs } : State).remakes = s.remakes := irem
  have hstk : ({ setPocket i { k with state := .delivered } (issueCommand m s) with
      bundles := bs } : State).stacker = (issueCommand m s).stacker := rfl
  have hbun : ({ setPocket i { k with state := .delivered } (issueCommand m s) with
      bundles := bs } : State).bundles = bs := rfl
  unfold delivered
  generalize ({ setPocket i { k with state := .delivered } (issueCommand m s) with
    bundles := bs } : State) = u at *
  obtain ⟨-, -, -, -, wcon, -, wtrack, -, -, -, -, -, wrem, -, wbun, wstk, -⟩ :=
    writeOutcome_frame c.pageSlot c.recordSlot (c.outcomeFields k.serial) o u
  generalize writeOutcome c.pageSlot c.recordSlot (c.outcomeFields k.serial) o u = v at *
  refine ⟨?_, ?_, fun l hl => ?_, wstk.trans hstk, wbun.trans hbun, wrem.trans hrem⟩
  · rw [freeContext_at, wtrack, hstart]
    simp [Pocket.dropReference, hr, hrj]
  · rw [freeContext_contextAt, if_pos rfl]
  · rw [freeContext_contextAt, if_neg hl, contextAt, wcon, hctx]; rfl

/-- The command, then the outcome half with the final count of the page (R43, R163). -/
theorem delivered_sent {k : Pocket} {c : Context} {s : State} {q : OpenPage}
    (hq : pageAt c.pageSlot s = some q) (ho : LinkOpen s) (i j : Nat) (m : StackerCommand)
    (o : PieceOutcome) (bs : List Bundle) :
    ∃ more, (delivered i k j c m o bs s).sent = s.sent ++
      (if s.stacker.pulse = none then [.pulse m] else []) ++ outcomeWrites q c k.serial o ++ more := by
  obtain ⟨hsent, hopen⟩ := issueCommand_sent m s
  obtain ⟨-, -, -, hfet, -⟩ := issueCommand_frame m s
  have hq' : pageAt c.pageSlot (issueCommand m s) = some q := by rw [pageAt, hfet]; exact hq
  have ho' := hopen ho
  unfold delivered
  generalize issueCommand m s = u at hsent hq' ho'
  obtain ⟨more, hm⟩ := writeOutcome_sent
    (s := { setPocket i { k with state := .delivered } u with bundles := bs }) hq' ho'
    c.recordSlot (c.outcomeFields k.serial) o
  rw [outcomeHalf_eq] at hm
  exact ⟨more, hm.trans (by rw [← hsent]; rfl)⟩

theorem delivered_counted (i : Nat) (k : Pocket) (j : Nat) (c : Context) (m : StackerCommand)
    (o : PieceOutcome) (bs : List Bundle) (s : State)
    (hm : commandCounter m ≠ .stackerUnready) (hi : commandCounter m ≠ .interrupts)
    (ho : outcomeCounter o ≠ .stackerUnready) (hoi : outcomeCounter o ≠ .interrupts)
    (hmo : commandCounter m ≠ outcomeCounter o) :
    Counted (commandCounter m) s (delivered i k j c m o bs s) ∧
    Counted (outcomeCounter o) s (delivered i k j c m o bs s) := by
  have command := issueCommand_counted m hm hi s
  have other := issueCommand_follows (follows_notCounted hoi) m hmo ho.symm s
  unfold delivered
  generalize issueCommand m s = u at command other
  have placed {d : LineCounter} : NotCounted d u
      { setPocket i { k with state := .delivered } u with bundles := bs } := notCounted_quiet rfl
  have freed {d : LineCounter} (v : State) : NotCounted d v (freeContext j v) := notCounted_quiet rfl
  exact ⟨(command.before placed).before ((writeOutcome_follows (follows_notCounted hi) _ _ _ o
      hmo.symm _).trans (freed _)),
    ((writeOutcome_counted _ _ _ o hoi _).after (other.trans placed)).before (freed _)⟩

end Sys2Proof.Machine
end

section
/-! The settling of O36. -/

namespace Sys2Proof.Machine

/-- Behind REJECT a pocket's record, by the state it arrives in (R143, R144). -/
theorem Pocket.gated_state (k : Pocket) :
    (k.state = .live → pendingFaults k = [] → k.gated = { k with pend := .empty }) ∧
    (∀ f items, k.state = .live → pendingFaults k = f :: items → k.gated = { k with
      state := .faulted, pend := .empty,
      fault := some { cause := f.1, station := f.2, suspect := false } }) ∧
    (k.state ≠ .live → k.gated = { k with pend := .empty }) := by
  refine ⟨fun h hp => ?_, fun f items h hp => ?_, fun h => ?_⟩
  · unfold Pocket.gated; rw [h, hp]
  · unfold Pocket.gated; rw [h, hp]
  · unfold Pocket.gated; split
    · contradiction
    · rfl

/-- The arrival of a LIVE pocket at the last position (R163). -/
theorem lastArrival_delivers {p : Profile} {i : Nat} {k : Pocket} {j : Nat} {c : Context} {s : State}
    (h : pocketThere p (p.trackLen - 1) s = some (i, k)) (hl : k.state = .live)
    (hc : pocketContext k s = some (j, c)) : lastArrival p s = deliver i k j c s := by
  simp only [lastArrival, h, hl, if_true, hc]

/-- A change that the resolution test makes behind a delivery leaves the pocket and the contexts, and lets
the commands, what was sent and the counts only grow. -/
theorem resolutionTest_behind (n : Nat) (w : Word) (s : State) :
    (resolutionTest n w s).track = s.track ∧ (resolutionTest n w s).contexts = s.contexts ∧
    (resolutionTest n w s).remakes = s.remakes ∧
    (∃ more, (resolutionTest n w s).sent = s.sent ++ more) ∧
    ∀ c, c ≠ .interrupts → c ∉ closeCounts → NotCounted c s (resolutionTest n w s) := by
  obtain ⟨-, -, -, -, hcon, htrack, -, -, -, -, -, hrem, -⟩ := resolutionTest_frame n w s
  refine ⟨htrack, hcon, hrem, (resolutionTest_follows follows_flows (by simp) n w s).1,
    fun c hi hc => ?_⟩
  exact resolutionTest_follows (follows_notCounted hi) (fun d hd e => hc (e ▸ hd)) n w s

/-- Settles O36: `gateItems_live` and `gateItems_faulted` for the arrival at REJECT, and the steps of
`delivered` with the resolution test behind them for the last position. -/
theorem theGateAndTheStacker : Obligations.TheGateAndTheStacker := by
  unfold Obligations.TheGateAndTheStacker
  refine ⟨fun p i k s h => ?_, fun p i k s h => ⟨fun hl => ?_, fun j c hl hc hq => ?_⟩⟩
  · obtain ⟨⟨q, hat, hcore, hpend⟩, hyes, hno, hrem, hrest⟩ := rejectArrival_record h
    obtain ⟨hdivert, hpass, hempty⟩ := rejectArrival_gate h
    obtain ⟨hgate, hlives, hfaulteds⟩ := rejectArrival_counts h
    obtain ⟨hnone, hsome, hother⟩ := k.gated_state
    obtain ⟨-, hk⟩ := pocketThere_some h
    have hserial : q.serial = k.gated.serial := (congrArg Pocket.serial hcore :)
    have hstate : q.state = k.gated.state.behindGate := (congrArg Pocket.state hcore :)
    have hfault : q.fault = k.gated.fault := (congrArg Pocket.fault hcore :)
    refine ⟨q, hat, hserial.trans k.gated_serial, hpend, fun hr => ⟨fun r hm => ?_, hyes hr⟩, hno,
      hgate, hlives, hfaulteds, fun hl hp => ?_, fun c n items hl hp => ?_, fun hf => ?_, fun he => ?_⟩
    · rw [hyes hr] at hm
      simpa using (List.mem_filter.mp hm).2
    · have hg := hnone hl hp
      rw [hg] at hstate hfault hpass
      obtain ⟨hgp, hcp, honly⟩ := hpass hl
      rw [hp] at honly
      exact ⟨hstate.trans (by simp [PocketState.behindGate, hl]), hfault, hgp, hcp, honly⟩
    · have hg := hsome (c, n) items hl hp
      rw [hg] at hstate hfault hdivert
      obtain ⟨hgd, hcd⟩ := hdivert rfl
      exact ⟨hstate, hfault, hgd, hcd⟩
    · have hg := hother (by simp [hf])
      rw [hg] at hstate hfault hdivert
      obtain ⟨hgd, hcd⟩ := hdivert hf
      refine ⟨hstate.trans (by simp [PocketState.behindGate, hf]), hfault, hgd, hcd, ?_⟩
      rw [hrem, (gateItems_faulted (pendingFaults k) hk hf).1]
    · have hg := hother (by simp [he])
      rw [hg] at hstate hempty
      exact ⟨hstate.trans (by simp [PocketState.behindGate, he]), hempty he⟩
  · simp only [lastArrival, h, if_neg hl]
  · obtain ⟨-, hk⟩ := pocketThere_some h
    rw [lastArrival_delivers h hl hc]
    cases hsort : c.sort with
    | inSort =>
      rw [deliver_inSort hsort]
      obtain ⟨hat, hgone, hothers, hstk, hbun, hrem⟩ := delivered_fields hk hc .stack .mailed
        (s.bundles.map (atOrdinal c.ordinal Bundle.stacked))
      obtain ⟨hcommand, houtcome⟩ := delivered_counted i k j c .stack .mailed
        (s.bundles.map (atOrdinal c.ordinal Bundle.stacked)) s
        (by decide) (by decide) (by decide) (by decide) (by decide)
      obtain ⟨hpulse, hjoins⟩ := issueCommand_joins (c := .stack) hq
      have hsent {q : OpenPage} (hpage : pageAt c.pageSlot s = some q) (ho : LinkOpen s) :=
        delivered_sent (k := k) hpage ho i j .stack .mailed
          (s.bundles.map (atOrdinal c.ordinal Bundle.stacked))
      generalize delivered i k j c .stack .mailed _ s = u at *
      obtain ⟨rtrack, rcon, rrem, ⟨late, rsent⟩, rcount⟩ := resolutionTest_behind c.ordinal k.serial u
      have hcontext (l : Nat) : contextAt l (resolutionTest c.ordinal k.serial u) = contextAt l u := by
        rw [contextAt, rcon]; rfl
      have hbundles :=
        resolutionTest_bundles (f := Bundle.stacked) k.serial (fun b => ⟨rfl, rfl, rfl⟩) hbun
      have hlater := (resolutionTest_queues c.ordinal k.serial u
        (by rw [hstk]; exact fun e => absurd e hpulse)).2
      generalize resolutionTest c.ordinal k.serial u = t at *
      refine ⟨⟨{ k with state := .delivered, subscriber := none }, by rw [rtrack]; exact hat, rfl, rfl,
          rfl⟩, (hcontext j).trans hgone,
        fun l hne => (hcontext l).trans (hothers l hne), ?_, fun _ => ⟨?_, ?_, hbundles⟩, by simp,
        rrem.trans hrem, fun q hpage ho => ?_⟩
      · obtain ⟨more, hm⟩ := hlater
        exact ⟨more, hm.trans (by rw [commandsOf, hstk]; exact congrArg (· ++ more) hjoins)⟩
      · exact hcommand.before (rcount _ (by decide) (by decide))
      · exact houtcome.before (rcount _ (by decide) (by decide))
      · obtain ⟨more, hm⟩ := hsent hpage ho
        exact ⟨more ++ late, by rw [rsent, hm]; simp⟩
    | oos =>
      rw [deliver_oos hsort]
      obtain ⟨hat, hgone, hothers, hstk, hbun, hrem⟩ :=
        delivered_fields hk hc .oosExit .mailedOos s.bundles
      obtain ⟨hcommand, houtcome⟩ := delivered_counted i k j c .oosExit .mailedOos s.bundles s
        (by decide) (by decide) (by decide) (by decide) (by decide)
      obtain ⟨-, hjoins⟩ := issueCommand_joins (c := .oosExit) hq
      refine ⟨⟨_, hat, rfl, rfl, rfl⟩, hgone, hothers, ⟨[], ?_⟩, by simp,
        fun _ => ⟨hcommand, houtcome, hbun⟩, hrem, fun q hpage ho => delivered_sent hpage ho i j .oosExit .mailedOos s.bundles⟩
      rw [hstk]
      simpa [commandsOf] using hjoins

end Sys2Proof.Machine
end

section
/-! The completion of a request: its slot is answered and it is counted (R185). -/

namespace Sys2Proof.Machine

/-- The slot is written behind everything sent before, and REQ_DONE is set (R185). -/
theorem completeRequest_answers {r : Request} {u : State} (hr : u.request = some r) (ho : LinkOpen u)
    (result : RequestResult) (word : Word) :
    SlotAnswered r result word [] u (completeRequest result word u) := by
  unfold completeRequest
  rw [hr]
  simp only []
  obtain ⟨e1, h1⟩ := sent_hostWrite ho (slotAddress u r.slot + 0x18) (leBytes 4 word.toNat)
  obtain ⟨e2, h2⟩ := sent_hostWrite h1 (slotAddress u r.slot + 0x04) (leBytes 4 r.hostTag.toNat)
  obtain ⟨e3, h3⟩ := sent_hostWrite h2 (slotAddress u r.slot + 0x01) (leBytes 1 result.code)
  obtain ⟨e4, h4⟩ := sent_hostWrite h3 (slotAddress u r.slot) (leBytes 1 slotDone)
  generalize hostWrite (slotAddress u r.slot) (leBytes 1 slotDone) _ = v at e4 h4
  have hsent : v.sent = u.sent ++ slotWrites (slotAddress u r.slot) word r.hostTag result := by
    rw [e4, e3, e2, e1]; simp [slotWrites]
  have ho' : LinkOpen { v with request := none } := h4
  refine ⟨raise_set ho' .reqDone, ?_⟩
  have hs := setAttentionBit_sent .reqDone { v with request := none }
  rw [← raise_open ho'] at hs
  rcases hs with hs | ⟨a, hs⟩
  · exact ⟨[], hs.trans (by simp [hsent]), .inl rfl⟩
  · exact ⟨[.interrupt a .reqDone], hs.trans (by simp [hsent]), .inr ⟨a, rfl⟩⟩

theorem completeRequest_counted {r : Request} {u : State} (hr : u.request = some r)
    (result : RequestResult) (word : Word) :
    Counted .requests u (completeRequest result word u) := by
  have B := follows_notCounted (c := .requests) (by decide)
  unfold completeRequest
  rw [hr]
  simp only []
  refine (bump_counted .requests _).after (NotCounted.trans ?_ (B.raised _ _))
  have h1 := B.write (slotAddress u r.slot + 0x18) (leBytes 4 word.toNat) u
  have h2 := h1.trans (B.write (slotAddress u r.slot + 0x04) (leBytes 4 r.hostTag.toNat) _)
  have h3 := h2.trans (B.write (slotAddress u r.slot + 0x01) (leBytes 1 result.code) _)
  have h4 := h3.trans (B.write (slotAddress u r.slot) (leBytes 1 slotDone) _)
  exact h4.trans (notCounted_quiet rfl)

/-- The Control Block is where the anchor stands (R24). -/
theorem controlBlock_kept {s t : State} (h : LinkKept t s) : controlBlock t = controlBlock s := by
  obtain ⟨-, -, hlow, hhigh, -⟩ := h
  rw [controlBlock, controlBlock, hlow, hhigh]

/-- A slot answered behind what an effect has sent. -/
theorem SlotAnswered.behind {r : Request} {result : RequestResult} {word : Word} {s u t : State}
    {more : List Message} (h : SlotAnswered r result word [] u t) (hc : controlBlock u = controlBlock s)
    (hs : u.sent = s.sent ++ more) : SlotAnswered r result word more s t := by
  obtain ⟨hbit, interrupt, hsent, hint⟩ := h
  refine ⟨hbit, interrupt, ?_, hint⟩
  rw [hsent, hs, slotAddress, slotAddress, hc, List.append_nil]

/-- A request completes with an effect that keeps the Control Block where it stands. -/
theorem finish_answers {r : Request} {s u : State} (hr : u.request = some r)
    (hc : controlBlock u = controlBlock s) (hf : Flows s u) (result : RequestResult) (word : Word)
    (ho : LinkOpen s) : ∃ effect, SlotAnswered r result word effect s (finish result word u) := by
  have hsettled : (settle u).request = some r := by simp [hr]
  have hflow := hf.trans (settle_follows follows_flows trivial u)
  obtain ⟨⟨more, hm⟩, hopen, -⟩ := hflow
  have hkept : controlBlock (settle u) = controlBlock s := by
    rw [controlBlock_kept (s := u) (by simp [LinkKept]), hc]
  exact ⟨more, (completeRequest_answers hsettled (hopen ho) result word).behind hkept hm⟩

theorem finish_completed {r : Request} {s u : State} (hr : u.request = some r)
    (hc : controlBlock u = controlBlock s) (hf : Flows s u) (hn : NotCounted .requests s u)
    (result : RequestResult) (word : Word) : Completed r result word s (finish result word u) := by
  have hsettled : (settle u).request = some r := by simp [hr]
  refine ⟨by simp, ?_, finish_answers hr hc hf result word⟩
  exact (completeRequest_counted hsettled result word).after
    (hn.trans (settle_follows (follows_notCounted (by decide)) (by decide) u))

end Sys2Proof.Machine
end

section
/-! The begin of a job: its state, the status section and the page chain (R27, R171). -/

namespace Sys2Proof.Machine

/-! ## The outstanding reads -/

@[simp] theorem hostWrite_outstanding (a : Address) (d : List Byte) (s : State) :
    (hostWrite a d s).link.outstanding = s.link.outstanding := by
  unfold hostWrite handOver performItem waitItem
  split
  · rfl
  · split <;> rfl

@[simp] theorem setAttentionBit_outstanding (c : Attention) (s : State) :
    (setAttentionBit c s).link.outstanding = s.link.outstanding := by
  unfold setAttentionBit
  split
  · rfl
  · simp only []
    split
    · rfl
    · split <;> rfl

@[simp] theorem raise_outstanding (c : Attention) (s : State) :
    (raise c s).link.outstanding = s.link.outstanding := by
  unfold raise; split
  · exact setAttentionBit_outstanding c s
  · rfl

@[simp] theorem writeFields_outstanding (l : List (Nat × List Byte)) (s : State) :
    (writeFields l s).link.outstanding = s.link.outstanding :=
  foldl_proj (fun t => t.link.outstanding) _ (fun u _ => hostWrite_outstanding _ _ u) l s

/-! ## The page chain begins -/

/-- With the first page as its source and a valid address, the fetcher reads its header at once, unless a
link word is being read (R27 to R30). -/
theorem fetchStep_begins {p : Profile} {a : Address} {v : State} (hj : v.job = some p)
    (hs : v.fetcher.state = .waiting) (hsrc : v.fetcher.source = .first a) (hr : fetchReady v = true)
    (ha : pageAddressOk p.windowBase p.windowLimit a = true) :
    fetchStep v = if linkReading v then v else startFetch a v := by
  unfold fetchStep
  simp only [hj, hs, hr, hsrc, beginFetch, ha, if_true, Bool.true_and]
  cases linkReading v <;> rfl

/-- A fetch that begins leaves the file position and the lists of the fetcher (R30). -/
theorem startFetch_fetcher (a : Address) (v : State) :
    let f := (startFetch a v).fetcher
    f.state = .fetching ∧ f.fetch = some { address := a, header := none } ∧
    f.pages = v.fetcher.pages ∧ f.expected = v.fetcher.expected ∧
    f.nextOrdinal = v.fetcher.nextOrdinal ∧ f.source = v.fetcher.source ∧
    f.lastSerial = v.fetcher.lastSerial ∧ f.endSeen = v.fetcher.endSeen := by simp [startFetch]

theorem startFetch_counted (a : Address) (v : State) : Counted .pagesRead v (startFetch a v) := by
  have B := follows_notCounted (c := .pagesRead) (by decide)
  unfold startFetch
  simp only []
  refine (bump_counted .pagesRead v).before ?_
  generalize bump .pagesRead v = u
  exact (setFetch_follows B .fetching (by decide) u).trans
    (NotCounted.trans (notCounted_quiet rfl) (B.read _ _ _))

/-- The link read that is outstanding, or the page fetch that begins (R27, R30). -/
theorem settle_begins {p : Profile} {a : Address} {v : State} (hj : v.job = some p)
    (hs : v.fetcher.state = .waiting) (hsrc : v.fetcher.source = .first a) (hr : fetchReady v = true)
    (ha : pageAddressOk p.windowBase p.windowLimit a = true) :
    let f := (settle v).fetcher
    f.pages = v.fetcher.pages ∧ f.expected = v.fetcher.expected ∧
    f.nextOrdinal = v.fetcher.nextOrdinal ∧ f.source = v.fetcher.source ∧
    f.lastSerial = v.fetcher.lastSerial ∧ f.endSeen = v.fetcher.endSeen ∧
    (linkReading v = false →
      f.state = .fetching ∧ f.fetch = some { address := a, header := none }) ∧
    (linkReading v = true → NotCounted .pagesRead v (settle v)) ∧
    (linkReading v = false → Counted .pagesRead v (settle v)) := by
  have hf : (settle v).fetcher = (fetchStep v).fetcher := by simp [settle]
  have hq : NotCounted .pagesRead (fetchStep v) (settle v) :=
    refreshHolds_follows (follows_notCounted (by decide)) _
  rw [hf]
  rw [fetchStep_begins hj hs hsrc hr ha] at hq ⊢
  obtain ⟨hstate, hfetch, hpages, hexp, hord, hsource, hlast, hend⟩ := startFetch_fetcher a v
  cases hl : linkReading v with
  | true =>
    rw [if_pos hl] at hq
    exact ⟨rfl, rfl, rfl, rfl, rfl, rfl, by simp, fun _ => hq, by simp⟩
  | false =>
    rw [if_neg (by simp [hl])] at hq
    exact ⟨hpages, hexp, hord, hsource, hlast, hend, fun _ => ⟨hstate, hfetch⟩, by simp,
      fun _ => (startFetch_counted a v).before hq⟩

/-! ## The state of a job that begins -/

/-- The status section is written from the state that LOAD_JOB initialises, which then stays. -/
theorem initJob_frame (p : Profile) (s : State) : SameButLink (initJob p s) (initJobState p s) := by
  simp [initJob, SameButLink, LinkKept]

theorem initJob_outstanding (p : Profile) (s : State) :
    (initJob p s).link.outstanding = s.link.outstanding := by simp [initJob, writeStatus, initJobState]

theorem initJob_follows {R : State → State → Prop} {L : LineCounter → Prop} (B : Follows R L)
    (p : Profile) (s : State) : R (initJobState p s) (initJob p s) :=
  B.trans (writeStatus_follows B _) (B.raised _ _)

/-- LOAD_JOB begins a job with an open link (R171). -/
theorem initJob_flows (p : Profile) (s : State) :
    Flows s (initJob p s) := by
  have begun : Flows s (initJobState p s) := by
    refine ⟨⟨[], by simp [initJobState]⟩, ?_, fun _ => id⟩
    rintro ⟨he, -, ha, hw⟩
    exact ⟨he, by simp [initJobState, firstFetcher], ha, hw⟩
  exact begun.trans (initJob_follows follows_flows p s)

/-- The first page of a valid profile passes the checks of R29 (R170, check 2). -/
theorem valid_firstPage {p : Profile} (h : p.firstFailure = none) :
    pageAddressOk p.windowBase p.windowLimit p.firstPage = true :=
  checks_of_firstFailure h (2, pageAddressOk p.windowBase p.windowLimit p.firstPage)
    (by simp [Profile.checks])

/-- The initial track holds a gap of serial 0 at each position (R20). -/
theorem firstTrack_at {p : Profile} (hl : p.trackLen ≤ 128) (i : Nat) :
    (∃ k, (firstTrack p).pocketAt i = some k ∧ k.serial = 0 ∧ k.kind = .gap ∧ k.state = .empty ∧
      k.subscriber = none) ↔ i < p.trackLen := by
  constructor
  · rintro ⟨k, hk, -⟩
    have hi := Track.pocketAt_lt hk
    by_contra hn
    simp [Track.pocketAt, firstTrack, hi, hn] at hk
  · intro h
    refine ⟨firstGap, ?_, rfl, rfl, rfl, rfl⟩
    simp [Track.pocketAt, firstTrack, h, Nat.lt_of_lt_of_le h hl]

end Sys2Proof.Machine
end

section
/-! The job that LOAD_JOB has begun, block by block (R171). -/

namespace Sys2Proof.Machine

theorem takeCompletion_flows (k : ReadKind) (s : State) :
    Flows s (takeCompletion .awaited k s) :=
  ⟨⟨[], by simp [takeCompletion]⟩, id, fun _ => id⟩

/-- The data of the profile read loads the job (R169, R171). -/
theorem exec_profileReadDone {r : Request} {data : List Byte} {s : State} (hr : s.request = some r)
    (hp : r.phase = .readingProfile) (ho : .profile ∈ s.link.outstanding)
    (hv : (parseProfile data).firstFailure = none) :
    exec (.profileReadDone ⟨.awaited, data⟩) s =
      .next (finish .doneOk 0 (initJob (parseProfile data) (takeCompletion .awaited .profile s))) := by
  have hu : dataUsed .awaited .profile s = true := by simp [dataUsed, readPending, ho]
  have hph : readingProfile s = true := by simp [readingProfile, hr, hp]
  show (if dataUsed .awaited .profile s && readingProfile s then _ else _) = _
  rw [hu, hph, Bool.and_self, if_pos rfl, takeProfile, hv]
  rfl

/-- A line that has just become READY holds intake for itself and for its heads (R63, R66). -/
theorem holdsNow_begun {p : Profile} {s : State} (hj : s.job = some p) (hl : s.line.state = .ready)
    (ha : headActive s = false) (hs : s.staging = []) :
    holdsNow s = { Holds.empty with line := true, noHead := true } := by
  simp [holdsNow, hj, hl, ha, hs, Holds.empty]

/-- The completion of a request leaves what the fetcher and the hold causes became (R185). -/
theorem finish_rest (result : RequestResult) (word : Word) (s : State) :
    (finish result word s).fetcher = (settle s).fetcher ∧
    (finish result word s).intake = { s.intake with holds := holdsNow (fetchStep s) } := by
  refine ⟨by simp [finish], ?_⟩
  have : (settle s).intake = { (fetchStep s).intake with holds := holdsNow (fetchStep s) } :=
    refreshHolds_intake _
  simp [finish, this]

/-- A completion counts its request alone behind what the fetcher then does (R185, R30). -/
theorem finish_counted {r : Request} {s : State} (hr : s.request = some r) (result : RequestResult)
    (word : Word) : Counted .requests s (finish result word s) ∧
      ∀ c, c ≠ .requests → c ≠ .interrupts → NotCounted c (settle s) (finish result word s) := by
  have hsettled : (settle s).request = some r := by simp [hr]
  refine ⟨(completeRequest_counted hsettled result word).after
    (settle_follows (follows_notCounted (by decide)) (by decide) s), fun c hc hi => ?_⟩
  exact completeRequest_follows (follows_notCounted hi) hc.symm result word _

/-! ## The job that has begun -/

/-- The state in which LOAD_JOB has begun a job and is completed (R169, R171). -/
def begun (p : Profile) (s : State) : State := finish .doneOk 0 (initJob p s)

theorem initJob_job (p : Profile) (s : State) : (initJob p s).job = some p := by
  obtain ⟨-, -, hprof, -, -, -, -, -, -, -, -, -, -, -, -, -, -, hline, -⟩ := initJob_frame p s
  rw [State.job, hprof, hline]
  rfl

/-- The blocks at the values that their chapters give (R20, R70, R88, R104, R131). -/
theorem begun_fields (p : Profile) (s : State) :
    let t := begun p s
    t.profile = some p ∧ t.line = { Line.reset with state := .ready } ∧ t.track = firstTrack p ∧
    t.staging = [] ∧ t.contexts = Vector.replicate 128 none ∧ t.remakes = [] ∧ t.gate = .pass ∧
    t.bundles = [] ∧
    t.stations = Vector.ofFn (fun n : Fin 12 => firstStation (s.stations.get n) (p.stations.get n)) ∧
    t.gauge = firstGauge p ∧
    t.print = { headA := firstHead p.headAFitted, headB := firstHead p.headBFitted,
                readBacks := [], window := [] } ∧
    t.wrap = .reset ∧ t.inputs = s.inputs ∧ t.stacker = s.stacker ∧ t.pending = s.pending ∧
    t.request = none ∧ t.counters.snapshots = 0 := by
  have hv := initJob_frame p s
  have ht := finish_frame .doneOk 0 (initJob p s)
  have hr : (begun p s).request = none := finish_request _ _ _
  simp only [SameButLink, SameButDone, LinkKept] at hv ht
  unfold begun at *
  generalize initJob p s = v at *
  generalize finish .doneOk 0 v = t at *
  simp only [ht, hv, hr]
  simp [initJobState, Counters.reset]

/-- The Control Block stays where the anchor stands (R24). -/
theorem initJob_controlBlock (p : Profile) (s : State) :
    controlBlock (initJob p s) = controlBlock s := by
  have h : LinkKept (initJob p s) (initJobState p s) := by simp [initJob, LinkKept]
  exact (controlBlock_kept h).trans rfl

/-- The fetcher waits at the first page, with its conditions holding (R27). -/
theorem initJob_waits (p : Profile) (s : State) :
    (initJob p s).fetcher = firstFetcher p ∧ fetchReady (initJob p s) = true ∧
    linkReading (initJob p s) = linkReading s := by
  obtain ⟨-, -, -, hfet, hstg, -, -, -, -, -, -, -, -, -, -, -, -, hline, -⟩ := initJob_frame p s
  refine ⟨hfet, ?_, by rw [linkReading, initJob_outstanding]; rfl⟩
  rw [fetchReady, hline, hstg, hfet]
  simp [initJobState, firstFetcher, Fetcher.reset, Config.pageCapacity, Config.stagingCapacity,
    Config.openPageCapacity]

/-- The page chain begins at the first page (R27, R30). -/
theorem begun_chain {p : Profile} (h : p.firstFailure = none) (s : State) :
    let f := (begun p s).fetcher
    f.pages = [] ∧ f.expected = 1 ∧ f.nextOrdinal = 1 ∧ f.source = .first p.firstPage ∧
    f.lastSerial = none ∧ f.endSeen = false ∧
    (linkReading s = false →
      f.state = .fetching ∧ f.fetch = some { address := p.firstPage, header := none }) := by
  obtain ⟨hfet, hready, hread⟩ := initJob_waits p s
  obtain ⟨hpages, hexp, hord, hsrc, hlast, hend, hbegins, -⟩ := settle_begins (initJob_job p s)
    (by rw [hfet]; rfl) (by rw [hfet]; rfl) hready (valid_firstPage h)
  obtain ⟨hf, -⟩ := finish_rest .doneOk 0 (initJob p s)
  rw [hfet] at hpages hexp hord hsrc hlast hend
  rw [hread] at hbegins
  unfold begun
  rw [hf]
  exact ⟨hpages, hexp, hord, hsrc, hlast, hend, hbegins⟩

/-- The hold causes of a line that waits for START (R63, R66). -/
theorem begun_intake (p : Profile) (s : State) :
    (begun p s).intake = { holds := { Holds.empty with line := true, noHead := true },
                           window := none } := by
  obtain ⟨-, hi⟩ := finish_rest .doneOk 0 (initJob p s)
  have hv := initJob_frame p s
  simp only [SameButLink, initJobState] at hv
  have hsame : holdsNow (fetchStep (initJob p s)) = holdsNow (initJob p s) :=
    holdsNow_congr (by simp) (by simp) (by simp) (by simp) (by simp)
  have hheads : headActive (initJob p s) = false := by
    simp only [headActive, hv, firstHead]
    cases p.headAFitted <;> cases p.headBFitted <;> decide
  have hholds := holdsNow_begun (initJob_job p s) (by simp [hv]) hheads (by simp [hv])
  unfold begun
  rw [hi, hsame, hholds]
  simp [hv]

/-- Every counter but the request's own, the interrupts and the page read is 0 (R189). -/
theorem begun_counters {p : Profile} {s : State} {r : Request} (hr : s.request = some r)
    (h : p.firstFailure = none) :
    let t := begun p s
    (t.counters.total.get 62 = 1 ∧ t.counters.interval.get 62 = 1 ∧
      ∀ c : LineCounter, c ≠ .requests → c ≠ .interrupts → c ≠ .pagesRead →
        t.counters.total.get c.index = 0 ∧ t.counters.interval.get c.index = 0) ∧
    (∀ i, t.counters.stationTotal.get i = 0 ∧ t.counters.stationInterval.get i = 0) ∧
    (let read : Word := if linkReading s then 0 else 1;
      t.counters.total.get 2 = read ∧ t.counters.interval.get 2 = read) := by
  obtain ⟨hfet, hready, hread⟩ := initJob_waits p s
  obtain ⟨-, -, -, -, -, -, -, hno, hyes⟩ := settle_begins (initJob_job p s)
    (by rw [hfet]; rfl) (by rw [hfet]; rfl) hready (valid_firstPage h)
  rw [hread] at hno hyes
  have hreq : (initJob p s).request = some r := (initJob_frame p s).2.1.trans hr
  obtain ⟨hown, hothers⟩ := finish_counted hreq .doneOk 0
  have hbank : SameStationBank (initJobState p s) (begun p s) :=
    follows_stationBank.trans (initJob_follows follows_stationBank p s)
      (finish_follows follows_stationBank trivial trivial .doneOk 0 _)
  have hzero {c : LineCounter} (hc : c ≠ .interrupts) :
      NotCounted c (initJobState p s) (initJob p s) :=
    initJob_follows (follows_notCounted hc) p s
  have hstart (c : LineCounter) : (initJobState p s).counters.total.get c.index = 0 ∧
      (initJobState p s).counters.interval.get c.index = 0 := by
    simp [initJobState, Counters.reset, Vector.get_eq_getElem]
  have once {c : LineCounter} {t : State} (hc : c ≠ .interrupts)
      (k : Counted c (initJob p s) t) :
      t.counters.total.get c.index = 1 ∧ t.counters.interval.get c.index = 1 := by
    obtain ⟨k1, k2⟩ := k.after (hzero hc)
    rw [k1, k2, (hstart c).1, (hstart c).2]
    exact ⟨by decide, by decide⟩
  have never {c : LineCounter} {t : State} (hc : c ≠ .interrupts)
      (k : NotCounted c (initJob p s) t) :
      t.counters.total.get c.index = 0 ∧ t.counters.interval.get c.index = 0 := by
    obtain ⟨k1, k2⟩ := (hzero hc).trans k
    rw [k1, k2]
    exact hstart c
  have index_requests : LineCounter.requests.index = 62 := rfl
  have index_pagesRead : LineCounter.pagesRead.index = 2 := rfl
  rw [← index_requests, ← index_pagesRead]
  change Counted .requests (initJob p s) (begun p s) at hown
  change ∀ c, c ≠ .requests → c ≠ .interrupts → NotCounted c (settle (initJob p s)) (begun p s)
    at hothers
  generalize begun p s = t at *
  obtain ⟨ho1, ho2⟩ := once (by decide) hown
  refine ⟨⟨ho1, ho2, fun c hc hi hp => ?_⟩, fun i => ?_, ?_⟩
  · exact never hi ((settle_follows (follows_notCounted hi) hp.symm _).trans (hothers c hc hi))
  · rw [hbank.1, hbank.2]
    simp [initJobState, Counters.reset, Vector.get_eq_getElem]
  · have hpages := hothers .pagesRead (by decide) (by decide)
    cases hl : linkReading s with
    | true => exact never (c := .pagesRead) (by decide) ((hno hl).trans hpages)
    | false => exact once (c := .pagesRead) (by decide) ((hyes hl).before hpages)

end Sys2Proof.Machine
end

section
/-! The settling of O51. -/

namespace Sys2Proof.Machine

/-- No context is in use in an emptied table (R46, R171). -/
theorem contextAt_emptied {t : State} (h : t.contexts = Vector.replicate 128 none) (j : Nat) :
    contextAt j t = none := by
  rw [contextAt, h]
  by_cases hj : j < 128
  · simp [hj]
  · simp [Nat.not_lt.mp hj]

/-- The heads of a job that begins (R104). -/
theorem headEntry_first {p : Profile} {t : State}
    (ht : t.print = { headA := firstHead p.headAFitted, headB := firstHead p.headBFitted,
                      readBacks := [], window := [] }) (h : Head) :
    t.headEntry h = firstHead (p.headFitted h) := by
  cases h with
  | a => simp only [State.headEntry, ht]; rfl
  | b => simp only [State.headEntry, ht]; rfl

/-- Settles O51, by the blocks of `begun`: their values, the page chain, the hold causes, the counters, and
the slot behind them. -/
theorem aValidProfileStartsAJob : Obligations.AValidProfileStartsAJob := by
  unfold Obligations.AValidProfileStartsAJob
  intro r data s hr hphase hread _
  simp only []
  intro hvalid
  have hexec := exec_profileReadDone hr hphase hread hvalid
  generalize parseProfile data = p at hvalid hexec ⊢
  obtain ⟨-, hlen, -⟩ := valid_ranges hvalid
  have hflows := takeCompletion_flows .profile s
  have hru : (takeCompletion .awaited .profile s).request = some r := hr
  have hlink : linkReading (takeCompletion .awaited .profile s) = linkReading s := by
    simp [linkReading, takeCompletion, List.mem_erase_of_ne]
  have hcontrol : controlBlock (takeCompletion .awaited .profile s) = controlBlock s := rfl
  have hrest : (takeCompletion .awaited .profile s).inputs = s.inputs ∧
      (takeCompletion .awaited .profile s).stacker = s.stacker ∧
      (takeCompletion .awaited .profile s).pending = s.pending ∧
      (takeCompletion .awaited .profile s).stations = s.stations := ⟨rfl, rfl, rfl, rfl⟩
  refine ⟨begun p (takeCompletion .awaited .profile s), hexec, ?_⟩
  generalize takeCompletion .awaited .profile s = u at hflows hru hlink hcontrol hrest
  obtain ⟨hinputs, hstacker, hpending, hstations⟩ := hrest
  have hslot := finish_answers (s := s) (u := initJob p u) ((initJob_frame p u).2.1.trans hru)
    ((initJob_controlBlock p u).trans hcontrol)
    (hflows.trans (initJob_flows p u)) .doneOk 0
  obtain ⟨fpro, flin, ftra, fstg, fcon, frem, fgat, fbun, fsta, fgau, fpri, fwra, finp, fstk, fpen, freq,
    fsnap⟩ := begun_fields p u
  obtain ⟨cpag, cexp, cord, csrc, clas, cend, cbegin⟩ := begun_chain hvalid u
  obtain ⟨kline, kstation, kread⟩ := begun_counters hru hvalid
  have hint := begun_intake p u
  change LinkOpen s → ∃ effect, SlotAnswered r .doneOk 0 effect s (begun p u) at hslot
  rw [hlink] at cbegin kread
  generalize begun p u = t at *
  refine ⟨freq, hslot, fpro, flin, ?_, ⟨fstg, frem, fbun, fgat, ?_⟩,
    ⟨cpag, cexp, cord, csrc, clas, cend, cbegin⟩, by rw [hint]; exact ⟨rfl, rfl⟩, fun n => ?_,
    by rw [fgau]; exact ⟨rfl, rfl, rfl⟩, fun h => ?_,
    by rw [fpri]; exact ⟨rfl, rfl, fwra⟩, kline, kstation, fsnap, kread, finp.trans hinputs,
    fstk.trans hstacker, fpen.trans hpending⟩
  · rw [ftra]
    exact ⟨rfl, rfl, rfl, rfl, firstTrack_at hlen⟩
  · exact contextAt_emptied fcon
  · simp [fsta, Vector.get_eq_getElem, firstStation, hstations]
  · rw [headEntry_first fpri h]
    exact ⟨rfl, rfl, rfl⟩

end Sys2Proof.Machine
end

section
/-! ABORT_JOB: what its steps count, and that what was sent only grows (R46, R180). -/

namespace Sys2Proof.Machine

section
variable {R : State → State → Prop} {L : LineCounter → Prop}

theorem idleBlocks_follows (B : Follows R L) (s : State) : R s (idleBlocks s) := by
  have empty : R s (emptyCollections s) := by
    unfold emptyCollections
    refine B.trans ?_ (refreshHolds_follows B _)
    exact B.quiet rfl rfl rfl rfl
  have fetch : R s (applyIf (!accessStopped s) (setFetch .off) (emptyCollections s)) :=
    B.trans empty (applyIf_follows B fun u => setFetch_follows B .off (by decide) u)
  unfold idleBlocks idleWrap
  simp only []
  generalize applyIf (!accessStopped s) (setFetch .off) (emptyCollections s) = u at fetch
  have stations : R u ((List.finRange 12).foldl idleStation u) :=
    foldl_follows B idleStation (fun v n => setStation_follows B n _ v) _ u
  generalize (List.finRange 12).foldl idleStation u = v at stations
  refine B.trans fetch (B.trans stations ?_)
  have heads : R v (refreshHolds (setHead .b .reset (setHead .a .reset v))) :=
    B.trans (B.trans (setHead_follows B .a _ v) (setHead_follows B .b _ _)) (refreshHolds_follows B _)
  generalize refreshHolds (setHead .b .reset (setHead .a .reset v)) = w at heads
  refine B.trans heads (B.trans (setGauge_follows B { w.gauge with state := .off } w) ?_)
  generalize setGauge { w.gauge with state := .off } w = x
  exact B.trans (t := { x with wrap := .reset }) (B.quiet rfl rfl rfl rfl) (statusWrite_follows B _ _ _)

theorem abortRecords_follows (B : Follows R L) (h : L .notProduced) (s : State) :
    R s (abortRecords s) := by
  unfold abortRecords; split
  · exact B.refl s
  · have outcome (n k : Nat) (f : OutcomeFields) (u : State) :
        R u (putOutcome n k f .notProduced u) := putOutcome_follows B n k f .notProduced h u
    exact B.trans (foldl_follows B abortStaged (fun u _ => outcome _ _ _ u) _ s)
      (foldl_follows B abortContext (fun u _ => outcome _ _ _ u) _ _)

theorem abortBundle_follows (B : Follows R L) (h : L .bundlesAborted) (s : State) (b : Bundle) :
    R s (abortBundle s b) :=
  B.trans (putReport_follows B b .aborted 0 s) (removeBundle_follows B b .aborted h _)

theorem abortBundles_follows (B : Follows R L) (h : L .bundlesAborted) (s : State) :
    R s (abortBundles s) := foldl_follows B abortBundle (abortBundle_follows B h) _ s

theorem abortPages_follows (B : Follows R L) (s : State) : R s (abortPages s) := by
  unfold abortPages; split
  · exact B.refl s
  · exact B.trans (foldl_follows B (fun t p => closePage p t) (fun u p => closePage_follows B p u) _ s)
      (releaseSkipped_follows B _)

/-- What ABORT_JOB does behind its writes. -/
theorem abortJob_behind (B : Follows R L) (s : State) : R (abortWritten s) (abortJob s) := by
  rw [abortJob_eq]
  generalize abortWritten s = u
  have blocks := idleBlocks_follows B u
  generalize idleBlocks u = v at blocks
  exact B.trans blocks (B.trans (t := { v with profile := none }) (B.quiet rfl rfl rfl rfl)
    (changeLine_follows B _ _))

theorem abortJob_follows (B : Follows R L) (h1 : L .notProduced) (h2 : L .bundlesAborted) (s : State) :
    R (endFetch s) (abortJob s) := by
  refine B.trans ?_ (abortJob_behind B s)
  exact B.trans (abortRecords_follows B h1 _)
    (B.trans (abortBundles_follows B h2 _) (abortPages_follows B _))

end

theorem endFetch_flows (s : State) : Flows s (endFetch s) :=
  ⟨⟨[], by simp [endFetch]⟩, id, fun _ => id⟩

theorem abortJob_flows (s : State) : Flows s (abortJob s) :=
  (endFetch_flows s).trans (abortJob_follows follows_flows trivial trivial s)

theorem abortJob_controlBlock (s : State) : controlBlock (abortJob s) = controlBlock s := by
  obtain ⟨⟨-, -, -, -, -, -, -, -, -, -, -, -, -, -, -, hw⟩, -⟩ := abortWritten_abort s
  obtain ⟨-, -, -, -, -, -, -, -, -, -, -, -, -, -, -, -, -, -, -, hi⟩ :=
    idleBlocks_fields (abortWritten s)
  have hc : controlBlock (abortJob s) =
      controlBlock { idleBlocks (abortWritten s) with profile := none } := by
    rw [abortJob_eq]
    exact controlBlock_kept (by simp [LinkKept])
  have hs : controlBlock (endFetch s) = controlBlock s := rfl
  rw [hc, ← hs, ← controlBlock_kept hw, ← controlBlock_kept hi]
  generalize idleBlocks (abortWritten s) = u
  rfl

/-! ## The pages in their places -/

/-- The slots and addresses of the open pages, in their order. -/
def pagePlaces (s : State) : List (Nat × Address) := s.fetcher.pages.map fun q => (q.slot, q.address)

/-- The open pages and the skipped page stand where they stood. -/
def SamePlaces (s t : State) : Prop :=
  pagePlaces t = pagePlaces s ∧ t.fetcher.skipped = s.fetcher.skipped

theorem SamePlaces.trans {s t u : State} (h : SamePlaces s t) (k : SamePlaces t u) :
    SamePlaces s u := ⟨k.1.trans h.1, k.2.trans h.2⟩

theorem SamePlaces.of_fetcher {s t : State} (h : t.fetcher = s.fetcher) : SamePlaces s t := by
  unfold SamePlaces pagePlaces
  rw [h]
  exact ⟨rfl, rfl⟩

theorem pageAt_place (n : Nat) (s : State) :
    (pageAt n s).map (fun q => (q.slot, q.address)) = (pagePlaces s).find? fun a => a.1 == n := by
  rw [pagePlaces, List.find?_map]
  rfl

theorem updatePage_places {f : OpenPage → OpenPage} (hf : ∀ q, (f q).slot = q.slot ∧
    (f q).address = q.address) (n : Nat) (s : State) : SamePlaces s (updatePage n f s) := by
  refine ⟨?_, rfl⟩
  simp only [pagePlaces, updatePage, List.map_map]
  refine List.map_congr_left fun q _ => ?_
  by_cases h : q.slot = n <;> simp [h, hf]

end Sys2Proof.Machine
end

section
/-! What ABORT_JOB writes: the outcomes, the reports and the page closes in their order (R46, R166). -/

namespace Sys2Proof.Machine

/-! ## The outcomes -/

/-- A record due NOT_PRODUCED: the slot of its page, its own slot, and the fields of its outcome. -/
abbrev DueRecord := Nat × Nat × OutcomeFields

/-- Its outcome is written (R43). -/
def putDue (s : State) (d : DueRecord) : State := putOutcome d.1 d.2.1 d.2.2 .notProduced s

/-- The writes that its outcome makes, given by the entry of its page. -/
def dueWrites (d : DueRecord) : Nat × (OpenPage → List Message) :=
  (d.1, fun q => outcomeHalf q d.2.1 d.2.2 .notProduced)

/-- The records that ABORT_JOB writes: those staged, then those fed and PENDING (R46). -/
def dueRecords (s : State) : List DueRecord :=
  s.staging.map (fun r => (r.pageSlot, r.recordSlot, .neverFed)) ++
    (pendingContexts s).map fun c => (c.pageSlot, c.recordSlot, c.outcomeFields c.lastPocket)

theorem abortRecords_due {s : State} (h : accessStopped s = false) :
    abortRecords s = (dueRecords s).foldl putDue s := by
  simp only [abortRecords, h, Bool.false_eq_true, if_false, dueRecords, List.foldl_append,
    List.foldl_map]
  rfl

theorem outcomeHalf_neverFed (q : OpenPage) (k : Nat) :
    outcomeHalf q k .neverFed .notProduced = neverFedWrites q.address k (q.final + 1) := rfl

theorem abortOutcomes_due (s : State) :
    abortOutcomes s = outcomesInTurn s.fetcher.pages ((dueRecords s).map dueWrites) := by
  unfold abortOutcomes dueRecords
  rw [List.map_append, List.map_map, List.map_map]
  refine congrArg (outcomesInTurn _) (congrArg₂ (· ++ ·) ?_ ?_)
  · refine List.map_congr_left fun r _ => ?_
    simp only [Function.comp_apply, dueWrites, outcomeHalf_neverFed]
  · refine List.map_congr_left fun c _ => ?_
    simp only [Function.comp_apply, dueWrites, outcomeHalf_eq]

theorem outcomesInTurn_none {pages : List OpenPage} {n : Nat}
    (h : pages.find? (fun q => q.slot == n) = none) (w : OpenPage → List Message)
    (rest : List (Nat × (OpenPage → List Message))) :
    outcomesInTurn pages ((n, w) :: rest) = outcomesInTurn pages rest := by
  simp only [outcomesInTurn, h]

theorem outcomesInTurn_some {pages : List OpenPage} {n : Nat} {q : OpenPage}
    (h : pages.find? (fun q => q.slot == n) = some q) (w : OpenPage → List Message)
    (rest : List (Nat × (OpenPage → List Message))) :
    outcomesInTurn pages ((n, w) :: rest) = w q ++ outcomesInTurn
      (pages.map fun r => if r.slot = n then { r with final := r.final + 1 } else r) rest := by
  simp only [outcomesInTurn, h]

/-- The pages after an outcome: the final count of its page has risen (R43). -/
theorem putOutcome_pages {s : State} (h : LinkOpen s) (n k : Nat) (f : OutcomeFields)
    (o : PieceOutcome) :
    (putOutcome n k f o s).fetcher = if (pageAt n s).isSome then
      { s.fetcher with pages := s.fetcher.pages.map fun q =>
          if q.slot = n then { q with final := q.final + 1 } else q } else s.fetcher := by
  have hb : pageAt n (bump (outcomeCounter o) s) = pageAt n s := rfl
  have hacc : accessStopped (bump (outcomeCounter o) s) = false := decide_eq_false h.2.1
  have hfet : (bump (outcomeCounter o) s).fetcher = s.fetcher := rfl
  unfold putOutcome
  simp only [hb, hacc, Bool.false_eq_true, if_false]
  generalize bump (outcomeCounter o) s = u at hfet
  cases pageAt n s with
  | none => simpa using hfet
  | some q => simp [updatePage, hfet]

theorem putOutcome_none {n : Nat} {s : State} (h : pageAt n s = none) (k : Nat) (f : OutcomeFields)
    (o : PieceOutcome) : putOutcome n k f o s = bump (outcomeCounter o) s := by
  have hb : pageAt n (bump (outcomeCounter o) s) = none := h
  unfold putOutcome
  simp only [hb]

theorem putDue_places {s : State} (h : LinkOpen s) (d : DueRecord) : SamePlaces s (putDue s d) := by
  have hf := putOutcome_pages h d.1 d.2.1 d.2.2 .notProduced
  split at hf
  · exact (updatePage_places (f := fun q => { q with final := q.final + 1 }) (fun q => ⟨rfl, rfl⟩)
      d.1 s).trans (.of_fetcher hf)
  · exact .of_fetcher hf

/-- Each outcome is written with the final count of its page as it then stands (R43). -/
theorem putDues_sent (ds : List DueRecord) {s : State} (h : LinkOpen s) :
    let t := ds.foldl putDue s
    t.sent = s.sent ++ outcomesInTurn s.fetcher.pages (ds.map dueWrites) ∧ LinkOpen t ∧
    SamePlaces s t ∧ t.bundles = s.bundles := by
  induction ds generalizing s with
  | nil => exact ⟨by simp [outcomesInTurn], h, .of_fetcher rfl, rfl⟩
  | cons d ds ih =>
    have hopen : LinkOpen (putDue s d) :=
      (putOutcome_follows follows_flows d.1 d.2.1 d.2.2 .notProduced trivial s).2.1 h
    have hpages := putOutcome_pages h d.1 d.2.1 d.2.2 .notProduced
    have hplaces := putDue_places h d
    have hbun : (putDue s d).bundles = s.bundles := by simp [putDue]
    obtain ⟨hs, ho, hp, hb⟩ := ih hopen
    refine ⟨?_, ho, hplaces.trans hp, hb.trans hbun⟩
    rw [List.foldl_cons, hs, List.map_cons]
    change (putDue s d).fetcher = _ at hpages
    cases hq : pageAt d.1 s with
    | none =>
      have hsent : (putDue s d).sent = s.sent := by rw [putDue, putOutcome_none hq]; rfl
      rw [hq] at hpages
      rw [hsent, hpages, dueWrites, outcomesInTurn_none hq]
      rfl
    | some q =>
      obtain ⟨hsent, -⟩ := putOutcome_sent hq h d.2.1 d.2.2 .notProduced
      change (putDue s d).sent = _ at hsent
      rw [hq] at hpages
      rw [hsent, hpages, dueWrites, outcomesInTurn_some hq, List.append_assoc]
      rfl

end Sys2Proof.Machine
end

section
/-! What ABORT_JOB writes behind the outcomes: the ABORTED reports, then CLOSED for the pages (R46, R166). -/

namespace Sys2Proof.Machine

/-! ## Messages sent in order, with others between them -/

/-- These messages have been sent since, in their order. -/
def Sends (ms : List Message) (s t : State) : Prop := ∃ more, t.sent = s.sent ++ more ∧ ms.Sublist more

theorem Sends.trans {a b : List Message} {s t u : State} (h : Sends a s t) (k : Sends b t u) :
    Sends (a ++ b) s u := by
  obtain ⟨x, hx, ha⟩ := h
  obtain ⟨y, hy, hb⟩ := k
  exact ⟨x ++ y, by rw [hy, hx, List.append_assoc], ha.append hb⟩

theorem Sends.of_flows {s t : State} (h : Flows s t) : Sends [] s t := by
  obtain ⟨⟨more, hm⟩, -⟩ := h
  exact ⟨more, hm, List.nil_sublist _⟩

theorem Sends.before {a : List Message} {s t u : State} (h : Sends a s t) (k : Flows t u) :
    Sends a s u := by simpa using h.trans (.of_flows k)

theorem Sends.of_sent {a : List Message} {s t : State} (h : t.sent = s.sent ++ a) : Sends a s t :=
  ⟨a, h, List.Sublist.refl _⟩

/-! ## The reports -/

/-- The ABORTED report of a bundle into the page that holds its opening record (R166). -/
def abortReport (s : State) (b : Bundle) : List Message :=
  match pageAt b.pageSlot s with
  | none => []
  | some q => reportWrites q b 0 .aborted

/-- Only the place of the page matters. -/
theorem abortReport_places {s t : State} (h : SamePlaces s t) (b : Bundle) :
    abortReport t b = abortReport s b := by
  have hp := (pageAt_place b.pageSlot t).trans ((congrArg (List.find? _) h.1).trans
    (pageAt_place b.pageSlot s).symm)
  unfold abortReport
  cases ht : pageAt b.pageSlot t with
  | none =>
    rw [ht] at hp
    rw [Option.map_eq_none_iff.mp hp.symm]
  | some q =>
    rw [ht] at hp
    obtain ⟨r, hr, e⟩ := Option.map_eq_some_iff.mp hp.symm
    obtain ⟨-, ha⟩ := Prod.mk.inj e
    rw [hr]
    simp only [reportWrites, ha]

theorem putReport_sent {b : Bundle} {s : State} (h : LinkOpen s) :
    Sends (abortReport s b) s (putReport b .aborted 0 s) ∧
    SamePlaces s (putReport b .aborted 0 s) := by
  have hacc : accessStopped s = false := decide_eq_false h.2.1
  unfold abortReport putReport
  cases hq : pageAt b.pageSlot s with
  | none => exact ⟨.of_sent (List.append_nil _).symm, .of_fetcher rfl⟩
  | some q =>
    simp only [hacc, Bool.false_eq_true, if_false]
    obtain ⟨e1, h1⟩ := sent_hostWrite h (recordAddress q.address b.recordSlot + 0xF0)
      (leBytes 2 b.delivered ++ leBytes 2 b.outOfSort ++ leBytes 2 b.failed ++ leBytes 2 b.withdrawn)
    obtain ⟨e2, h2⟩ := sent_hostWrite h1 (recordAddress q.address b.recordSlot + 0xFC)
      (leBytes 4 (0 : Word).toNat)
    obtain ⟨e3, -⟩ := sent_hostWrite h2 (recordAddress q.address b.recordSlot + 0xF8)
      (leBytes 1 CloseState.aborted.code)
    refine ⟨.of_sent ?_, SamePlaces.trans ?_ (updatePage_places
      (f := fun r => { r with bundlesOpen := r.bundlesOpen - 1 }) (fun _ => ⟨rfl, rfl⟩) _ _)⟩
    · simp only [updatePage_rest]
      rw [e3, e2, e1, List.append_assoc, List.append_assoc]
      rfl
    · exact .of_fetcher (by simp)

/-- A bundle that closes ABORTED is reported, leaves the table and sets BUNDLE_CLOSED (R166). -/
theorem abortBundle_sends {s : State} (h : LinkOpen s) (b : Bundle) :
    Sends (abortReport s b) s (abortBundle s b) ∧ LinkOpen (abortBundle s b) ∧
    SamePlaces s (abortBundle s b) ∧ (abortBundle s b).link.attention.getLsbD 3 = true := by
  obtain ⟨hsent, hplaces⟩ := putReport_sent (b := b) h
  have ho := (putReport_follows follows_flows b .aborted 0 s).2.1 h
  unfold abortBundle
  generalize putReport b .aborted 0 s = u at hsent hplaces ho
  have hrem := removeBundle_follows follows_flows b .aborted trivial u
  refine ⟨hsent.before hrem, hrem.2.1 ho, hplaces.trans (.of_fetcher ?_), ?_⟩
  · simp [removeBundle]
  · unfold removeBundle
    simp only []
    refine (bump_flows _ _).2.2 3 (raise_set ?_ .bundleClosed)
    refine (refreshHolds_follows follows_flows _).2.1 ?_
    exact ho

theorem abortBundles_sends (bs : List Bundle) {s : State} (h : LinkOpen s) :
    let t := bs.foldl abortBundle s
    Sends (bs.flatMap (abortReport s)) s t ∧ LinkOpen t ∧ SamePlaces s t := by
  induction bs generalizing s with
  | nil => exact ⟨.of_sent (List.append_nil _).symm, h, .of_fetcher rfl⟩
  | cons b bs ih =>
    obtain ⟨hsent, ho, hplaces, -⟩ := abortBundle_sends h b
    obtain ⟨ksent, ko, kplaces⟩ := ih ho
    have same : bs.flatMap (abortReport (abortBundle s b)) = bs.flatMap (abortReport s) := by
      rw [funext (abortReport_places hplaces)]
    rw [same] at ksent
    exact ⟨hsent.trans ksent, ko, hplaces.trans kplaces⟩

/-- BUNDLE_CLOSED is set where a bundle closed (R166). -/
theorem abortBundles_attention {bs : List Bundle} {s : State} (h : LinkOpen s) (hb : bs ≠ []) :
    (bs.foldl abortBundle s).link.attention.getLsbD 3 = true := by
  cases bs with
  | nil => exact absurd rfl hb
  | cons b bs =>
    obtain ⟨-, -, -, hset⟩ := abortBundle_sends h b
    exact (foldl_follows follows_flows abortBundle (abortBundle_follows follows_flows trivial) bs _).2.2
      3 hset

/-! ## The pages -/

/-- CLOSED is written into a page at an address (R45). -/
def closedWrite (a : Address) : Message := .write (a + 0x10) (leBytes 1 2)

theorem closePage_sends {s : State} (h : LinkOpen s) (q : OpenPage) :
    Sends [closedWrite q.address] s (closePage q s) := by
  obtain ⟨hs, -⟩ := sent_hostWrite h (q.address + 0x10) (leBytes 1 pageClosed)
  unfold closePage
  simp only []
  generalize hostWrite (q.address + 0x10) (leBytes 1 pageClosed) s = u at hs
  refine Sends.before (t := u) (.of_sent hs) ?_
  refine Flows.trans ?_ (completionTest_follows follows_flows _)
  refine Flows.trans ?_ (countClosed_follows follows_flows _ _)
  exact flows_quiet rfl rfl rfl

theorem closePages_sends (qs : List OpenPage) {s : State} (h : LinkOpen s) :
    let t := qs.foldl (fun t q => closePage q t) s
    Sends (qs.map fun q => closedWrite q.address) s t ∧ LinkOpen t ∧
    t.fetcher.skipped = s.fetcher.skipped := by
  induction qs generalizing s with
  | nil => exact ⟨.of_sent (List.append_nil _).symm, h, rfl⟩
  | cons q qs ih =>
    have first := closePage_sends h q
    have skipped : (closePage q s).fetcher.skipped = s.fetcher.skipped := by simp
    have opened := (closePage_follows follows_flows q s).2.1 h
    rw [List.foldl_cons, List.map_cons]
    generalize closePage q s = u at first skipped opened
    obtain ⟨hs, ho, hk⟩ := ih opened
    exact ⟨first.trans hs, ho, hk.trans skipped⟩

theorem releaseSkipped_sends {s : State} (h : LinkOpen s) :
    Sends (s.fetcher.skipped.toList.map fun a => closedWrite a.1) s (releaseSkipped s) := by
  unfold releaseSkipped
  cases hk : s.fetcher.skipped with
  | none => exact .of_sent (List.append_nil _).symm
  | some a =>
    obtain ⟨a, q⟩ := a
    have ho : LinkOpen { s with fetcher := { s.fetcher with skipped := none } } := h
    have hacc : accessStopped { s with fetcher := { s.fetcher with skipped := none } } = false :=
      decide_eq_false h.2.1
    have hsame : ({ s with fetcher := { s.fetcher with skipped := none } } : State).sent = s.sent := rfl
    simp only [hacc, Bool.false_eq_true, if_false]
    generalize ({ s with fetcher := { s.fetcher with skipped := none } } : State) = u at ho hsame
    obtain ⟨hs, -⟩ := sent_hostWrite ho (a + 0x10) (leBytes 1 pageClosed)
    refine Sends.before (.of_sent (by rw [hs, hsame]; rfl)) ?_
    exact (countClosed_follows follows_flows q _).trans (completionTest_follows follows_flows _)

theorem abortPages_sends {s : State} (h : LinkOpen s) :
    Sends ((pagePlaces s).map (fun a => closedWrite a.2) ++
      s.fetcher.skipped.toList.map fun a => closedWrite a.1) s (abortPages s) := by
  have hacc : accessStopped s = false := decide_eq_false h.2.1
  obtain ⟨hs, ho, hk⟩ := closePages_sends s.fetcher.pages h
  have hplaces : (pagePlaces s).map (fun a => closedWrite a.2) =
      s.fetcher.pages.map fun q => closedWrite q.address := by
    rw [pagePlaces, List.map_map]
    rfl
  rw [abortPages, if_neg (by simp [hacc]), hplaces, ← hk]
  exact hs.trans (releaseSkipped_sends ho)

/-! ## The whole -/

/-- With the link open ABORT_JOB writes the outcomes, then the reports and the page closes in order (R46). -/
theorem abortWritten_sends {s : State} (h : LinkOpen s) :
    ∃ rest, (abortWritten s).sent = s.sent ++ abortOutcomes s ++ rest ∧
      (abortReports s).Sublist rest := by
  have he : LinkOpen (endFetch s) := h
  have hacc : accessStopped (endFetch s) = false := decide_eq_false h.2.1
  obtain ⟨hsent, ho, hplaces, hbun⟩ := putDues_sent (dueRecords (endFetch s)) he
  rw [← abortRecords_due hacc] at hsent ho hplaces hbun
  have hout : outcomesInTurn (endFetch s).fetcher.pages ((dueRecords (endFetch s)).map dueWrites) =
      abortOutcomes s := (abortOutcomes_due s).symm
  have hes : (endFetch s).sent = s.sent := rfl
  rw [hout, hes] at hsent
  have hplaces : SamePlaces s (abortRecords (endFetch s)) := hplaces
  have hbun : (abortRecords (endFetch s)).bundles = s.bundles := hbun
  unfold abortWritten
  generalize abortRecords (endFetch s) = u at hsent ho hplaces hbun
  obtain ⟨ksent, ko, kplaces⟩ := abortBundles_sends u.bundles ho
  obtain ⟨rest, hr, hsub⟩ := ksent.trans (abortPages_sends ko)
  refine ⟨rest, by rw [← hsent]; exact hr, ?_⟩
  obtain ⟨eplaces, eskipped⟩ := hplaces.trans kplaces
  rw [eplaces, eskipped, hbun, funext (abortReport_places hplaces), ← List.append_assoc, pagePlaces,
    List.map_map] at hsub
  exact hsub

end Sys2Proof.Machine
end

section
/-! The settling of O54. -/

namespace Sys2Proof.Machine

/-- ABORT_JOB is carried out for the request that asks for it. -/
theorem exec_abortJob {r : Request} {s : State} (h : Asks 6 r s) :
    exec .abortJob s = .next (serveAbort s) := by
  obtain ⟨hr, hcode, hphase⟩ := h
  have hh : handedRequest 6 s = some r := by simp [handedRequest, hr, hcode, hphase]
  show (match handedRequest 6 s with | none => _ | some _ => _) = _
  rw [hh]

theorem serveAbort_done {s : State} (h : s.line.state = .ready ∨ s.line.state = .paused ∨
    s.line.state = .complete ∨ s.line.state = .halted ∧ s.line.halt ≠ .link) :
    serveAbort s = finishCode .doneOk (abortCount s) (abortJob s) := by
  unfold serveAbort linkHalted
  rcases h with h | h | h | ⟨h, hl⟩
  · simp [h]
  · simp [h]
  · simp [h]
  · simp [h, hl]

theorem serveAbort_refused {s : State} (h : s.line.state = .idle ∨ s.line.state = .running ∨
    s.line.state = .draining) : serveAbort s = finishCode .badState s.line.state.code s := by
  unfold serveAbort linkHalted
  rcases h with h | h | h <;> simp [h]

/-- With no job loaded the fetcher does nothing at the end of an event, and no cause holds intake. -/
theorem finishCode_idle {s : State} (h : s.job = none) (result : RequestResult) (n : Nat) :
    (finishCode result n s).fetcher = s.fetcher ∧
    (finishCode result n s).intake = { s.intake with holds := .empty } := by
  have hf : fetchStep s = s := by simp [fetchStep, h]
  have hh : holdsNow s = .empty := by simp [holdsNow, h]
  obtain ⟨kf, ki⟩ := finish_rest result (BitVec.ofNat 32 n) s
  rw [hf, hh] at ki
  refine ⟨?_, ki⟩
  rw [finishCode, kf, settle, hf]
  simp

/-- The track holds no pocket with no job loaded (R21). -/
theorem pocketAt_reset (i : Nat) : Track.reset.pocketAt i = none := by
  cases h : Track.reset.pocketAt i with
  | none => rfl
  | some k =>
    have hi := Track.pocketAt_lt h
    simp [Track.pocketAt, Track.reset, hi] at h

/-- ABORT_JOB sets BUNDLE_CLOSED where a bundle was open (R166). -/
theorem abortWritten_attention {s : State} (h : LinkOpen s) (hb : s.bundles ≠ []) :
    (abortWritten s).link.attention.getLsbD 3 = true := by
  have he : LinkOpen (endFetch s) := h
  have hacc : accessStopped (endFetch s) = false := decide_eq_false h.2.1
  obtain ⟨-, ho, -, hbun⟩ := putDues_sent (dueRecords (endFetch s)) he
  rw [← abortRecords_due hacc] at ho hbun
  have hbun : (abortRecords (endFetch s)).bundles = s.bundles := hbun
  unfold abortWritten
  generalize abortRecords (endFetch s) = u at ho hbun
  exact (abortPages_follows follows_flows _).2.2 3
    (abortBundles_attention ho (by rw [hbun]; exact hb))

/-- Settles O54: the blocks by `abortJob_fields`, the writes by `abortWritten_sends`, then the slot. -/
theorem abortJobEmptiesTheLine : Obligations.AbortJobEmptiesTheLine := by
  unfold Obligations.AbortJobEmptiesTheLine
  intro r s hask
  have hexec := exec_abortJob hask
  obtain ⟨hr, -⟩ := hask
  refine ⟨fun hstate hdown => ?_, fun hstate => ?_⟩
  · rw [serveAbort_done hstate] at hexec
    refine ⟨_, hexec, ?_⟩
    have hacc : accessStopped s = false := decide_eq_false hdown
    obtain ⟨aline, aprof, atrack, astg, acon, abun, arem, agat, apag, afet, aoff, awin, asta, agau, apri,
      awra, astk, ainp, apen, areq⟩ := abortJob_fields s
    have hended : NotCounted .requests s (endFetch s) := notCounted_quiet rfl
    have hcount := hended.trans (abortJob_follows (follows_notCounted (by decide)) (by decide) (by decide) s)
    have hcompleted := finish_completed (areq.trans hr) (abortJob_controlBlock s) (abortJob_flows s) hcount
      .doneOk (BitVec.ofNat 32 (abortCount s))
    have hbehind : Flows (abortWritten s) (finishCode .doneOk (abortCount s) (abortJob s)) :=
      (abortJob_behind follows_flows s).trans (finish_follows follows_flows trivial trivial _ _ _)
    have hsent (ho : LinkOpen s) := abortWritten_sends ho
    have hset (ho : LinkOpen s) (hb : s.bundles ≠ []) := abortWritten_attention ho hb
    have hjob : (abortJob s).job = none := by rw [State.job, aline]; rfl
    obtain ⟨hfet, hint⟩ := finishCode_idle hjob .doneOk (abortCount s)
    change Completed r .doneOk (BitVec.ofNat 32 (abortCount s)) s
      (finishCode .doneOk (abortCount s) (abortJob s)) at hcompleted
    obtain ⟨fpen, fprof, fstg, fcon, ftrack, fsta, -, fgau, fpri, fwra, frem, fgat, fbun, fstk, fline, finp,
      -⟩ := finishCode_frame .doneOk (abortCount s) (abortJob s)
    generalize abortJob s = u at *
    generalize finishCode .doneOk (abortCount s) u = t at *
    refine ⟨fline.trans aline, fprof.trans aprof, hcompleted, ⟨fstg.trans astg, frem.trans arem,
      fbun.trans abun, by rw [hfet, apag], fgat.trans agat, by rw [hfet]; exact aoff hacc,
      by rw [hfet, afet], contextAt_emptied (fcon.trans acon)⟩, ?_, ?_, fun n => ?_, ?_,
      fstk.trans astk, finp.trans ainp, fpen.trans apen, fun ho => ?_, fun hb ho => ?_⟩
    · rw [ftrack, atrack]
      exact ⟨rfl, rfl, rfl, rfl, pocketAt_reset⟩
    · rw [hint]
      exact ⟨awin, rfl⟩
    · rw [fsta, asta]
      exact ⟨rfl, rfl, rfl, rfl, rfl⟩
    · rw [fgau, fpri, fwra, agau, apri, awra]
      exact ⟨rfl, rfl, rfl, rfl, rfl, rfl⟩
    · obtain ⟨rest, hs, hsub⟩ := hsent ho
      obtain ⟨more, hm⟩ := hbehind.1
      exact ⟨rest ++ more, by rw [hm, hs, List.append_assoc], hsub.trans (List.sublist_append_left _ _)⟩
    · exact hbehind.2.2 3 (hset ho hb)
  · rw [serveAbort_refused hstate] at hexec
    exact ⟨_, hexec, finish_completed hr rfl (flows_quiet rfl rfl rfl) (.refl _ _) _ _,
      finishCode_frame _ _ _⟩

end Sys2Proof.Machine
end
